-- ==== Sys2Proof/Word.lean ====
section
/-! DEFINITION. The bit vectors of the block: what the spec treats as bits, under its own names
(00_scope.md R7, R8: bit 0 is the least significant bit; every value is unsigned unless stated otherwise). -/

namespace Sys2Proof

/-- A byte of a wire frame: 8 bits (00_scope.md R8). -/
abbrev Byte := BitVec 8

/-- A Host bank word and a command word: 32 bits (10_state.md R24, 30_encoding.md R80). -/
abbrev Word := BitVec 32

/-- A device register address: 7 bits, `ADDR_BITS` (00_scope.md R7). -/
abbrev RegAddr := BitVec 7

/-- The contents of a device register: 16 bits, `REG_BITS` (00_scope.md R7). -/
abbrev RegVal := BitVec 16

/-- An IEEE 754 binary64 bit pattern (10_state.md R32). -/
abbrev Double := BitVec 64

end Sys2Proof
end

