-- ==== Sys2Proof/Types.lean ====
section
/-! DEFINITION. The named alternatives of the spec: decode rules, divisor codes, transaction kinds,
Sequencer states, error codes, bank words, Host statements, log records, and the events by which the
agents of 00_scope.md R4 act. Their codes are read and written in Machine/Operands.lean and
Machine/Flags.lean. -/

namespace Sys2Proof

/-- The decode rule tag (30_encoding.md R82): `RawUnsigned`, `UnsignedScaled`, `SignedMagnitudeScaled`. -/
inductive Tag where
  | raw
  | usc
  | sms
deriving DecidableEq, Repr, Inhabited

/-- The scale divisor code (30_encoding.md R83). -/
inductive Div where
  | d1
  | d10
  | d100
  | d250
  | d1000
  | denergy
deriving DecidableEq, Repr, Inhabited

/-- The kind of a wire transaction, the Sequencer's field `op` (10_state.md R20): `WRITE` = 0, `READ` = 1. -/
inductive TxnKind where
  | write
  | read
deriving DecidableEq, Repr, Inhabited

/-- The Sequencer's state `st` (10_state.md R20); the three-bit values 5 to 7 are never entered and have no name. -/
inductive SeqState where
  | idle
  | tx
  | settle
  | rx
  | penalty
deriving DecidableEq, Repr, Inhabited

/-- `STAT.ERR` (60_exceptions.md R200); the code 3 is never written and has no name. -/
inductive ErrCode where
  | none
  | checksum
  | illegal
deriving DecidableEq, Repr, Inhabited

/-- The bank words a Host program's `LDW` may name (30_encoding.md R96). -/
inductive BankReg where
  | stat
  | raw
  | valLo
  | valHi
deriving DecidableEq, Repr, Inhabited

/-- One access of the Host to the register bank (20_memory.md R60): a byte offset and a width in bytes. -/
inductive HostAccess where
  /-- `MemRead(off, bytes)`. -/
  | read (off bytes : Nat)
  /-- `MemWrite(off, bytes, v)`. -/
  | write (off bytes : Nat) (v : Word)
deriving DecidableEq, Repr, Inhabited

/-- One statement of an assembled Host program (30_encoding.md R96). -/
inductive HostStmt where
  /-- A command statement or `.word`: write the word to `CMD`, then poll `STAT` until `DONE` = 1. -/
  | issue (w : Word)
  /-- `LDW`: read a bank word and record it as an observation of the program. -/
  | ldw (r : BankReg)
deriving DecidableEq, Repr, Inhabited

/-- A record of the diagnostic output `LOG` (60_exceptions.md R208). -/
structure LogRecord where
  kind     : TxnKind
  abyte    : Byte
  expected : Byte
  received : Byte
deriving DecidableEq, Repr, Inhabited

/-- One entry of `INIT_TABLE` (43_device_initializer.md R180). -/
structure InitEntry where
  addr : RegAddr
  data : RegVal
deriving DecidableEq, Repr, Inhabited

/-- An action of one agent, the unit of a run (00_scope.md R4, 70_reset_and_hazards.md R234).
DESIGN CHOICE (safe; notes/assumptions/2.md): the spec fixes no order among the agents. -/
inductive Event where
  /-- The Sequencer takes its transition, if one is enabled (41_transaction_engine.md R130). -/
  | sequencer
  /-- The Link becomes ready to accept one more byte (20_memory.md R66). -/
  | linkAccepts
  /-- One more byte arrives in the Link's receive stream (20_memory.md R67). -/
  | linkDelivers (b : Byte)
  /-- The Host accesses the bank (20_memory.md R60). -/
  | hostAccess (a : HostAccess)
  /-- A statement is added to the Host program (30_encoding.md R96). -/
  | hostLoads (st : HostStmt)
  /-- The Host program takes its next access (30_encoding.md R96). -/
  | hostProgram
  /-- Block reset (70_reset_and_hazards.md R220, R222). -/
  | reset
deriving DecidableEq, Repr, Inhabited

/-- A phase of the mains (30_encoding.md R99). -/
inductive Phase where
  | a
  | b
  | c
deriving DecidableEq, Repr, Inhabited

/-- The three kinds of power (00_scope.md R7, `POWER_TAG(kind)`). -/
inductive PowerKind where
  | active
  | reactive
  | apparent
deriving DecidableEq, Repr, Inhabited

/-- The named quantities of the Register Map (30_encoding.md R99). The names of the power-factor, phase-angle and
energy registers are not in the source (91_not_in_source.md N9): they are numbered. -/
inductive Quantity where
  | voltage (p : Phase)
  | current (p : Phase)
  | phasePower (k : PowerKind) (p : Phase)
  | totalPower (k : PowerKind)
  | frequency
  | powerFactor (q : Nat)
  | phaseAngle (q : Nat)
  | temperature
  | energy (q : Nat)
deriving DecidableEq, Repr, Inhabited

/-- A pseudo-instruction of 30_encoding.md R99, each expanding to one command. -/
inductive Pseudo where
  | readreg (a : RegAddr)
  | writereg (a : RegAddr) (d : RegVal)
  | getv (p : Phase)
  | geti (p : Phase)
  | getp (p : Phase)
  | getq (p : Phase)
  | gets (p : Phase)
  | getpt
  | getqt
  | getst
  | getfreq
  | getpf (q : Nat)
  | getang (q : Nat)
  | gettemp
  | gete (q : Nat)
  | caliberr
deriving DecidableEq, Repr, Inhabited

/-- A statement of a Host program as written, its numbers not yet checked (30_encoding.md R96). -/
inductive AsmStmt where
  | rdreg (a : Nat)
  | wrreg (a d : Nat)
  | rddec (a : Nat) (tag : Tag) (div : Div)
  | decode (d : Nat) (tag : Tag) (div : Div)
  | beginInit
  | calerr
  | ldw (r : BankReg)
  | word (w : Nat)
  | pseudo (p : Pseudo)
deriving DecidableEq, Repr, Inhabited

end Sys2Proof
end

