-- ==== Sys2Proof/Config.lean ====
section
/-! DEFINITION. The implementation parameters of 00_scope.md R7. Those the source fixes are numerals; those marked OPEN
are opaque constants: nothing in Lean can evaluate them, so a theorem holds for every value. Configuration is not state
(10_state.md R37). The free value that stands for the agents' choices is `Config.environment`. -/

namespace Sys2Proof

/-- `SENTINEL`, the first byte of every request frame (00_scope.md R7). -/
def Config.sentinel : Byte := 0xFE

/-- `READ_FAIL_RAW`, the raw value a failed read returns (00_scope.md R7, 41_transaction_engine.md R142). -/
def Config.readFailRaw : RegVal := 0xFFFF

/-- `SETTLE_DELAY`, OPEN: units of the platform's time base (41_transaction_engine.md R136). -/
opaque Config.settleDelay : Nat

/-- `FAIL_DELAY`, OPEN: units of the platform's time base (41_transaction_engine.md R136). -/
opaque Config.failDelay : Nat

/-- The least width in bits that holds every number from 0 to `n`: `ceil(log2(n + 1))`, 0 for `n` = 0 (00_scope.md R7). -/
def Config.leastWidth (n : Nat) : Nat := if n = 0 then 0 else Nat.log2 n + 1

/-- How many bits `DELAY_WIDTH` has beyond those it needs; OPEN (00_scope.md R7). -/
opaque Config.delayWidthSpare : Nat

/-- `DELAY_WIDTH`: OPEN, "at least enough to hold `max(SETTLE_DELAY, FAIL_DELAY)`" (00_scope.md R7).
Two delays of 0 need no bit, by the measure R7 gives for `INIT_IDX_WIDTH`: DESIGN CHOICE (safe; notes/assumptions/5.md). -/
def Config.delayWidth : Nat :=
  Config.leastWidth (max Config.settleDelay Config.failDelay) + Config.delayWidthSpare

/-- An entry of the groups whose members are gains or zeros by default (43_device_initializer.md R180, groups 5 and 7). -/
inductive GainOrZero where
  /-- A gain register: it takes the group's gain constant. -/
  | gain (addr : RegAddr)
  /-- An angle or offset register: it takes 0x0000. -/
  | zero (addr : RegAddr)
deriving DecidableEq, Repr, Inhabited

/-- The groups of `INIT_TABLE` that the document names, and their values where it leaves them open
(43_device_initializer.md R180). The number of entries of each group is OPEN. DEDUCED (safe; notes/assumptions/8.md): groups 1
(soft reset) and 8 (enable metering) have at least one entry, since the first entry of the table is the soft-reset write and
the last one the enable-metering write; how many more either has is open, as is any number, zero too, in groups 2 to 7. -/
structure InitGroups where
  /-- The table's first entry, of group 1. -/
  softReset       : InitEntry
  /-- The other entries of group 1. -/
  softResetMore   : List InitEntry
  sagThreshold    : List InitEntry
  modes           : List InitEntry
  thresholds      : List RegAddr
  calibration     : List GainOrZero
  defaultGain     : RegVal
  harmonics       : List InitEntry
  adjustments     : List GainOrZero
  midScaleGain    : RegVal
  /-- The entries of group 8 before its last one. -/
  enableBefore    : List InitEntry
  /-- The table's last entry, of group 8. -/
  enableMetering  : InitEntry
deriving DecidableEq, Repr, Inhabited

/-- `INIT_TABLE`'s groups, OPEN: absent for an empty table, the corner case of 43_device_initializer.md R183.
DESIGN CHOICE (notes/assumptions/8.md: safe in this option, unsafe in the zeros and shared gains of `tableOfGroups`). -/
opaque Config.initGroups : Option InitGroups

/-- How many bits `INIT_IDX_WIDTH` has beyond those it needs; OPEN (00_scope.md R7). -/
opaque Config.initIdxWidthSpare : Nat

/-- `SYS_STATUS_ADDR`, OPEN (00_scope.md R7). -/
opaque Config.sysStatusAddr : RegAddr

/-- `CAL_MASK[0]` to `CAL_MASK[3]`, OPEN; the model neither forces nor forbids two of them to be equal
(43_device_initializer.md R187). -/
opaque Config.calMask0 : RegVal
opaque Config.calMask1 : RegVal
opaque Config.calMask2 : RegVal
opaque Config.calMask3 : RegVal

/-- `REG_ADDR(q)`, OPEN (00_scope.md R7). -/
opaque Config.regAddr : Quantity → RegAddr

/-- Whether `POWER_TAG(kind)` is `SMS`, OPEN (00_scope.md R7). -/
opaque Config.powerIsSigned : PowerKind → Bool

/-- `POWER_TAG(kind)`: OPEN, `USC` or `SMS` (00_scope.md R7, 90_conflicts.md C9). -/
def Config.powerTag (k : PowerKind) : Tag :=
  if Config.powerIsSigned k then .sms else .usc

/-- `HOST_BASE` in units of 32 bytes, OPEN (20_memory.md R64). -/
opaque Config.hostBaseUnits : Nat

/-- `HOST_BASE`: OPEN, aligned to 32 bytes (20_memory.md R64). -/
def Config.hostBase : Nat := 32 * Config.hostBaseUnits

/-- The FREE VALUE for the agents' choices: the event number `n` of those that nothing in the state schedules. It stands
for when the Sequencer moves, what the Host does, when the Link accepts or delivers and which byte (20_memory.md R67:
"an oracle draw under no law"; 70_reset_and_hazards.md R234). DESIGN CHOICE (safe; notes/assumptions/2.md). -/
opaque Config.environment : Nat → Event

end Sys2Proof
end

