-- ==== Sys2Proof/Syntax.lean ====
section
/-! DEFINITION. The instructions of the block: one constructor per row of spec/opcode_table.json, the six command
words (30_encoding.md R81) and the four wire frames (40_frame_codec.md R114 to R117). -/

namespace Sys2Proof

/-- The rows of the opcode table, their operands already read out of the encoding. -/
inductive Instr where
  /-- `RDREG`: read one device register, raw (41_transaction_engine.md R141). -/
  | rdreg (addr : RegAddr)
  /-- `WRREG`: write one device register (41_transaction_engine.md R145). -/
  | wrreg (addr : RegAddr) (data : RegVal)
  /-- `RDDEC`: read a device register and decode it (42_telemetry_decoder.md R167). -/
  | rddec (addr : RegAddr) (tag : Tag) (div : Div)
  /-- `DECODE`: decode a value the Host supplies (42_telemetry_decoder.md R166). -/
  | decode (data : RegVal) (tag : Tag) (div : Div)
  /-- `BEGIN`: play `INIT_TABLE` (43_device_initializer.md R183). -/
  | beginInit
  /-- `CALERR`: the calibration-error check (43_device_initializer.md R186). -/
  | calerr
  /-- `FRAME_RD_REQ`: a read request on the wire (40_frame_codec.md R114). -/
  | frameRdReq (addr : RegAddr)
  /-- `FRAME_WR_REQ`: a write request on the wire; its checksum byte is computed (40_frame_codec.md R115). -/
  | frameWrReq (addr : RegAddr) (data : RegVal)
  /-- `FRAME_RD_RESP`: a read response on the wire, its checksum as received (40_frame_codec.md R116). -/
  | frameRdResp (hi lo chk : Byte)
  /-- `FRAME_WR_ACK`: the echoed checksum of a write (40_frame_codec.md R117). -/
  | frameWrAck (echo : Byte)
deriving DecidableEq, Repr, Inhabited

end Sys2Proof
end

