-- ==== Sys2Proof/WellFormed.lean ====
section
/-! DEFINITION. Which instruction terms the encoding admits. The operand types carry every other bound: an address has
7 bits, a value 16, a tag and a divisor code only the named alternatives; a write request's checksum is computed. -/

namespace Sys2Proof

/-- The pairs (`TAG`, `DIV`) that `RDDEC` and `DECODE` admit: `TAG` in {1, 2} with any named divisor, or `TAG` = 0 with
`DIV` = 0 (30_encoding.md R84). -/
def pairLegal (tag : Tag) (div : Div) : Bool :=
  match tag with
  | .raw => decide (div = .d1)
  | .usc => true
  | .sms => true

/-- An instruction the encoding admits. -/
def Instr.wf (i : Instr) : Bool :=
  match i with
  | .rdreg _ => true
  | .wrreg _ _ => true
  | .rddec _ tag div => pairLegal tag div
  | .decode _ tag div => pairLegal tag div
  | .beginInit => true
  | .calerr => true
  | .frameRdReq _ => true
  | .frameWrReq _ _ => true
  | .frameRdResp _ _ _ => true
  | .frameWrAck _ => true

/-- The number of bits spec/opcode_table.json gives the instruction's row (its `format`). -/
def Instr.tableBits (i : Instr) : Nat :=
  match i with
  | .rdreg _ => 32
  | .wrreg _ _ => 32
  | .rddec _ _ _ => 32
  | .decode _ _ _ => 32
  | .beginInit => 32
  | .calerr => 32
  | .frameRdReq _ => 16
  | .frameWrReq _ _ => 40
  | .frameRdResp _ _ _ => 24
  | .frameWrAck _ => 8

end Sys2Proof
end

