-- ==== Sys2Proof/Machine/Operands.lean ====
section
/-! DEFINITION. Operand forms: the fields of a command word and the codes in them (30_encoding.md R80 to R84, R95), the
divisor sequences (R83), the sign-magnitude rule (00_scope.md R9), and `INIT_TABLE` laid out from its groups
(43_device_initializer.md R180). -/

namespace Sys2Proof.Machine

/-! ### The fields of a command word (30_encoding.md R80) -/

/-- `OPC`, bits 31:28. -/
def opcOf (w : Word) : BitVec 4 := w.extractLsb' 28 4

/-- `DIV`, bits 27:25. -/
def divCodeOf (w : Word) : BitVec 3 := w.extractLsb' 25 3

/-- `TAG`, bits 24:23. -/
def tagCodeOf (w : Word) : BitVec 2 := w.extractLsb' 23 2

/-- `ADDR`, bits 22:16. -/
def addrOf (w : Word) : RegAddr := w.extractLsb' 16 7

/-- `DATA`, bits 15:0. -/
def dataOf (w : Word) : RegVal := w.extractLsb' 0 16

/-- The command word of the given fields (30_encoding.md R80). -/
def commandWord (opc : BitVec 4) (div : BitVec 3) (tag : BitVec 2) (addr : RegAddr) (data : RegVal) : Word :=
  opc ++ div ++ tag ++ addr ++ data

/-! ### Codes -/

/-- `TAG` values (30_encoding.md R82); 3 is reserved. -/
def tagOfCode (c : BitVec 2) : Option Tag :=
  if c = 0 then some .raw
  else if c = 1 then some .usc
  else if c = 2 then some .sms
  else none

/-- The `TAG` value of a decode rule (30_encoding.md R82). -/
def codeOfTag (t : Tag) : BitVec 2 :=
  match t with
  | .raw => 0
  | .usc => 1
  | .sms => 2

/-- `DIV` values (30_encoding.md R83); 6 and 7 are reserved. -/
def divOfCode (c : BitVec 3) : Option Div :=
  if c = 0 then some .d1
  else if c = 1 then some .d10
  else if c = 2 then some .d100
  else if c = 3 then some .d250
  else if c = 4 then some .d1000
  else if c = 5 then some .denergy
  else none

/-- The `DIV` value of a divisor (30_encoding.md R83). -/
def codeOfDiv (d : Div) : BitVec 3 :=
  match d with
  | .d1 => 0
  | .d10 => 1
  | .d100 => 2
  | .d250 => 3
  | .d1000 => 4
  | .denergy => 5

/-- The divisors applied one after the other (30_encoding.md R95, 42_telemetry_decoder.md R163). -/
def divisorsOf (d : Div) : List Nat :=
  match d with
  | .d1 => [1]
  | .d10 => [10]
  | .d100 => [100]
  | .d250 => [250]
  | .d1000 => [1000]
  | .denergy => [100, 3200]

/-- `legal(w)` as 30_encoding.md R85 writes it, with its masks. -/
def legalWord (w : Word) : Bool :=
  let div := divCodeOf w
  let tag := tagCodeOf w
  let ruleOk := (tag == 0 && div == 0) || ((tag == 1 || tag == 2) && decide (div.toNat ≤ 5))
  if opcOf w = 0x1 then w &&& 0x0F80FFFF == 0
  else if opcOf w = 0x2 then w &&& 0x0F800000 == 0
  else if opcOf w = 0x3 then w &&& 0x0000FFFF == 0 && ruleOk
  else if opcOf w = 0x4 then w &&& 0x007F0000 == 0 && ruleOk
  else if opcOf w = 0x5 then w &&& 0x0FFFFFFF == 0
  else if opcOf w = 0x6 then w &&& 0x0FFFFFFF == 0
  else false

/-! ### Register values -/

/-- `v[15:8]`, the byte that travels first (20_memory.md R63). -/
def hiByte (v : RegVal) : Byte := v.extractLsb' 8 8

/-- `v[7:0]`. -/
def loByte (v : RegVal) : Byte := v.extractLsb' 0 8

/-- The 16-bit value of two bytes, the first high: `hi * 256 + lo` (00_scope.md R8). -/
def wordOfBytes (hi lo : Byte) : RegVal := hi ++ lo

/-- `smag16(v)`: bit 15 is a sign flag, bits 14:0 the magnitude (00_scope.md R9). -/
def smag16 (v : RegVal) : Int :=
  if v.getLsbD 15 then -((v &&& 0x7FFF).toNat : Int) else (v.toNat : Int)

/-- The integer numerator `n` (42_telemetry_decoder.md R161). -/
def numerator (raw : RegVal) (tag : Tag) : Int :=
  match tag with
  | .raw => (raw.toNat : Int)
  | .usc => (raw.toNat : Int)
  | .sms => smag16 raw

/-! ### `INIT_TABLE` (43_device_initializer.md R180) -/

/-- The entry of a gain-or-zero register, given its group's gain constant. -/
def gainOrZeroEntry (gain : RegVal) (g : GainOrZero) : InitEntry :=
  match g with
  | .gain a => ⟨a, gain⟩
  | .zero a => ⟨a, 0⟩

/-- The eight groups in the document's order: a soft-reset write first, an enable-metering write last, the thresholds,
angles and offsets zero (notes/assumptions/8.md). -/
def tableOfGroups (g : InitGroups) : List InitEntry :=
  g.softReset :: g.softResetMore ++ g.sagThreshold ++ g.modes ++ g.thresholds.map (fun a => ⟨a, 0⟩)
    ++ g.calibration.map (gainOrZeroEntry g.defaultGain) ++ g.harmonics
    ++ g.adjustments.map (gainOrZeroEntry g.midScaleGain) ++ g.enableBefore
    ++ [g.enableMetering]

/-- `INIT_TABLE`, empty or laid out from its groups. -/
def initTable : List InitEntry :=
  match Config.initGroups with
  | none => []
  | some g => tableOfGroups g

/-- `INIT_IDX_WIDTH`: OPEN, at least `ceil(log2(len(INIT_TABLE) + 1))` bits, which is 0 for an empty table
(00_scope.md R7). -/
def initIdxWidth : Nat := Config.leastWidth initTable.length + Config.initIdxWidthSpare

end Sys2Proof.Machine
end

