-- ==== Sys2Proof/Machine/Codec.lean ====
section
/-! DEFINITION. The Frame Codec (40_frame_codec.md): combinational, without state. Sums of bytes wrap modulo 256, which is
what addition of 8-bit vectors does (R110). -/

namespace Sys2Proof.Machine

/-- `abyte(addr, is_read)`: the address with the read flag in bit 7 (40_frame_codec.md R111). -/
def addressByte (addr : RegAddr) (kind : TxnKind) : Byte :=
  match kind with
  | .read => addr.setWidth 8 ||| 0x80
  | .write => addr.setWidth 8

/-- `wck(abyte, data)`: both data bytes and the address byte (40_frame_codec.md R112). -/
def writeChecksum (abyte : Byte) (data : RegVal) : Byte := hiByte data + loByte data + abyte

/-- `rck(hi, lo)`: the two data bytes only (40_frame_codec.md R113). -/
def readChecksum (hi lo : Byte) : Byte := hi + lo

/-- `encode_read(addr)`: two bytes, no checksum (40_frame_codec.md R114, 90_conflicts.md C5). -/
def encodeRead (addr : RegAddr) : List Byte := [Config.sentinel, addressByte addr .read]

/-- `encode_write(addr, data)`: five bytes (40_frame_codec.md R115). -/
def encodeWrite (addr : RegAddr) (data : RegVal) : List Byte :=
  [Config.sentinel, addressByte addr .write, hiByte data, loByte data,
    writeChecksum (addressByte addr .write) data]

/-- `decode_read(b)`: the value, or none for `ChecksumMismatch` (40_frame_codec.md R116). -/
def decodeRead (hi lo chk : Byte) : Option RegVal :=
  if readChecksum hi lo = chk then some (wordOfBytes hi lo) else none

/-- `check_ack(e, chk)`: the echo against the stored checksum (40_frame_codec.md R117). -/
def checkAck (echo chk : Byte) : Bool := echo == chk

/-- `encode_response(v)`: what a conforming device answers to a read; reference only, the block never executes it
(40_frame_codec.md R121, 90_conflicts.md C4). -/
def encodeResponse (v : RegVal) : List Byte := [hiByte v, loByte v, readChecksum (hiByte v) (loByte v)]

end Sys2Proof.Machine
end

