-- ==== Sys2Proof/Decode.lean ====
section
/-! DEFINITION. The decoder, total and rejecting by name, and after it the encoder. A command is one 32-bit word
(30_encoding.md R80 to R88); a wire frame is a list of bytes whose kind follows from where it stands: a request frame
tells its own length by bit 7 of its second byte, a response carries no marker and is known by the request it answers
(30_encoding.md R90 to R94). -/

namespace Sys2Proof

open Sys2Proof.Machine

/-- An encoded instruction and the place it stands in. -/
inductive Code where
  /-- A word written to `CMD`. -/
  | command (w : Word)
  /-- The bytes of a request frame, in the order they are sent. -/
  | request (bs : List Byte)
  /-- The bytes received after a read request. -/
  | readResponse (bs : List Byte)
  /-- The bytes received after a write request. -/
  | writeAck (bs : List Byte)
deriving DecidableEq, Repr, Inhabited

/-- Why the decoder refuses. -/
inductive DecodeError where
  /-- `OPC` is 0x0 or 0x7 to 0xF (30_encoding.md R81, R87). -/
  | unassignedOpcode
  /-- A field that the opcode does not use is not zero (30_encoding.md R84, R87). -/
  | unusedFieldNotZero
  /-- `TAG` = 3 (30_encoding.md R82, R87). -/
  | reservedTag
  /-- `DIV` is 6 or 7 (30_encoding.md R83, R87). -/
  | reservedDiv
  /-- `TAG` = 0 with `DIV` not 0 (30_encoding.md R84, R87). -/
  | illegalPair
  /-- A request frame that does not begin with 0xFE (30_encoding.md R90). -/
  | badSentinel
  /-- A write request whose fifth byte is not the checksum (40_frame_codec.md R115). -/
  | badChecksum
  /-- Fewer bytes than the frame has (30_encoding.md R93). -/
  | truncated
  /-- More bytes than the frame has (30_encoding.md R93). -/
  | trailingBytes
deriving DecidableEq, Repr, Inhabited

/-! ### Command words -/

/-- The operands `TAG` and `DIV` of a decoding command, with the pairs of 30_encoding.md R84. -/
def decodeRule (w : Word) : Except DecodeError (Tag × Div) :=
  match tagOfCode (tagCodeOf w), divOfCode (divCodeOf w) with
  | none, _ => .error .reservedTag
  | some _, none => .error .reservedDiv
  | some tag, some div => if pairLegal tag div then .ok (tag, div) else .error .illegalPair

/-- A command word, by its opcode (30_encoding.md R81, R84). -/
def decodeCommand (w : Word) : Except DecodeError Instr :=
  if opcOf w = 0x1 then
    if divCodeOf w = 0 ∧ tagCodeOf w = 0 ∧ dataOf w = 0 then .ok (.rdreg (addrOf w)) else .error .unusedFieldNotZero
  else if opcOf w = 0x2 then
    if divCodeOf w = 0 ∧ tagCodeOf w = 0 then .ok (.wrreg (addrOf w) (dataOf w)) else .error .unusedFieldNotZero
  else if opcOf w = 0x3 then
    if dataOf w = 0 then
      match decodeRule w with
      | .ok (tag, div) => .ok (.rddec (addrOf w) tag div)
      | .error e => .error e
    else .error .unusedFieldNotZero
  else if opcOf w = 0x4 then
    if addrOf w = 0 then
      match decodeRule w with
      | .ok (tag, div) => .ok (.decode (dataOf w) tag div)
      | .error e => .error e
    else .error .unusedFieldNotZero
  else if opcOf w = 0x5 then
    if divCodeOf w = 0 ∧ tagCodeOf w = 0 ∧ addrOf w = 0 ∧ dataOf w = 0 then .ok .beginInit
    else .error .unusedFieldNotZero
  else if opcOf w = 0x6 then
    if divCodeOf w = 0 ∧ tagCodeOf w = 0 ∧ addrOf w = 0 ∧ dataOf w = 0 then .ok .calerr
    else .error .unusedFieldNotZero
  else .error .unassignedOpcode

/-! ### Wire frames -/

/-- The first request frame of a byte stream and the bytes after it: its length is told by bit 7 of its second byte,
never by a search for 0xFE (30_encoding.md R93, R94). -/
def decodeRequest (bs : List Byte) : Except DecodeError (Instr × List Byte) :=
  match bs with
  | first :: abyte :: rest =>
    if first = Config.sentinel then
      if abyte.getLsbD 7 then .ok (.frameRdReq (abyte.setWidth 7), rest)
      else
        match rest with
        | hi :: lo :: chk :: rest' =>
          if writeChecksum abyte (wordOfBytes hi lo) = chk then
            .ok (.frameWrReq (abyte.setWidth 7) (wordOfBytes hi lo), rest')
          else .error .badChecksum
        | _ => .error .truncated
    else .error .badSentinel
  | _ => .error .truncated

/-- A list of whole request frames, one after the other; `fuel` bounds their number (30_encoding.md R94). -/
def decodeRequests (fuel : Nat) (bs : List Byte) : Except DecodeError (List Instr) :=
  match fuel, bs with
  | _, [] => .ok []
  | 0, _ :: _ => .error .trailingBytes
  | n + 1, b :: bs' =>
    match decodeRequest (b :: bs') with
    | .error e => .error e
    | .ok (i, rest) =>
      match decodeRequests n rest with
      | .error e => .error e
      | .ok is => .ok (i :: is)

/-- Any encoded instruction. -/
def decode (c : Code) : Except DecodeError Instr :=
  match c with
  | .command w => decodeCommand w
  | .request bs =>
    match decodeRequest bs with
    | .ok (i, []) => .ok i
    | .ok (_, _ :: _) => .error .trailingBytes
    | .error e => .error e
  | .readResponse [hi, lo, chk] => .ok (.frameRdResp hi lo chk)
  | .readResponse (_ :: _ :: _ :: _) => .error .trailingBytes
  | .readResponse _ => .error .truncated
  | .writeAck [echo] => .ok (.frameWrAck echo)
  | .writeAck (_ :: _) => .error .trailingBytes
  | .writeAck [] => .error .truncated

/-! ### The encoder -/

/-- The encoding of an instruction, from the tables of 30_encoding.md R84 and R90 to R92. -/
def encode (i : Instr) : Code :=
  match i with
  | .rdreg addr => .command (commandWord 0x1 0 0 addr 0)
  | .wrreg addr data => .command (commandWord 0x2 0 0 addr data)
  | .rddec addr tag div => .command (commandWord 0x3 (codeOfDiv div) (codeOfTag tag) addr 0)
  | .decode data tag div => .command (commandWord 0x4 (codeOfDiv div) (codeOfTag tag) 0 data)
  | .beginInit => .command (commandWord 0x5 0 0 0 0)
  | .calerr => .command (commandWord 0x6 0 0 0 0)
  | .frameRdReq addr => .request (encodeRead addr)
  | .frameWrReq addr data => .request (encodeWrite addr data)
  | .frameRdResp hi lo chk => .readResponse [hi, lo, chk]
  | .frameWrAck echo => .writeAck [echo]

/-- The bytes of a frame; a command word has none (the byte order of a bank word is not observable, 20_memory.md R64). -/
def Code.frameBytes (c : Code) : List Byte :=
  match c with
  | .command _ => []
  | .request bs => bs
  | .readResponse bs => bs
  | .writeAck bs => bs

/-- How many bits an encoded instruction has. -/
def Code.bits (c : Code) : Nat :=
  match c with
  | .command _ => 32
  | .request bs => 8 * bs.length
  | .readResponse bs => 8 * bs.length
  | .writeAck bs => 8 * bs.length

/-! ### Encoded instructions as numbers (spec/opcode_table.json)

A row's pattern is taken as one number whose bit 0 is its least significant bit; a frame's pattern is its bytes in the order
of the wire, and the byte sent first is the most significant one. DESIGN CHOICE (safe; notes/assumptions/10.md). -/

/-- The `n` bytes of a number, the most significant first. -/
def bytesOfNat (n w : Nat) : List Byte :=
  match n with
  | 0 => []
  | m + 1 => BitVec.ofNat 8 (w >>> (8 * m)) :: bytesOfNat m w

/-- The number of a list of bytes, the most significant first. -/
def natOfBytes (bs : List Byte) : Nat := bs.foldl (fun n b => n * 256 + b.toNat) 0

/-- The place of a table row of `nbits` bits: a command has 32, a read request 16, a write request 40, a read response
24 and an acknowledgment 8. -/
def codeOfTableWord (nbits w : Nat) : Option Code :=
  if nbits = 32 then some (.command (BitVec.ofNat 32 w))
  else if nbits = 16 then some (.request (bytesOfNat 2 w))
  else if nbits = 40 then some (.request (bytesOfNat 5 w))
  else if nbits = 24 then some (.readResponse (bytesOfNat 3 w))
  else if nbits = 8 then some (.writeAck (bytesOfNat 1 w))
  else none

/-- The number of an encoded instruction, in the table's numbering. -/
def Code.tableWord (c : Code) : Nat :=
  match c with
  | .command w => w.toNat
  | .request bs => natOfBytes bs
  | .readResponse bs => natOfBytes bs
  | .writeAck bs => natOfBytes bs

/-- The instruction the decoder reads from an opcode-table word. -/
def decodeTableWord (nbits w : Nat) : Option Instr :=
  match codeOfTableWord nbits w with
  | none => none
  | some c =>
    match decode c with
    | .ok i => some i
    | .error _ => none

end Sys2Proof
end

