-- ==== Sys2Proof/Machine/State.lean ====
section
/-! DEFINITION. The state of the block and of the two agents around it, as plain data, and the ways a step can stop.
The Sequencer's fields are those of 10_state.md R20, the bank's those of R24 to R32; the Link holds what R38 c and
20_memory.md R66 to R68 name; `LOG` is the run's history (60_exceptions.md R208). -/

namespace Sys2Proof.Machine

/-- The Sequencer's fields (10_state.md R20). -/
structure SeqRegs where
  /-- State. -/
  st      : SeqState
  /-- The command word latched at accept. -/
  cmd     : Word
  /-- Kind of the wire transaction in flight. -/
  op      : TxnKind
  /-- Address byte of the transaction in flight. -/
  abyte   : Byte
  /-- Request frame being sent. -/
  tx      : Vector Byte 5
  /-- Length of the request frame: 2 or 5. -/
  txLen   : BitVec 3
  /-- Number of request bytes already accepted by the Link. -/
  txIdx   : BitVec 3
  /-- Response bytes received so far. -/
  rx      : Vector Byte 3
  /-- Response length: 3 or 1. -/
  rxNeed  : BitVec 2
  /-- Number of response bytes received. -/
  rxCnt   : BitVec 2
  /-- The write checksum computed at encode time. -/
  chk     : Byte
  /-- Delay counter; its width is a parameter, so it is a natural number that an invariant bounds
  (notes/assumptions/5.md). -/
  dly     : Nat
  /-- Outcome of the last validation: Ok, or ChecksumMismatch. -/
  txnOk   : Bool
  /-- Raw value of the last read transaction. -/
  txnRaw  : RegVal
  /-- Index of the `INIT_TABLE` entry in flight; its width is a parameter (notes/assumptions/5.md). -/
  initIdx : Nat
deriving DecidableEq, Repr

/-- The Host register bank (10_state.md R24): `STAT` by its fields (R26), `RAW` (R31), `VAL_HI:VAL_LO` (R32). The word
written to `CMD` is `SeqRegs.cmd`; a read of `CMD` gives zero. -/
structure BankRegs where
  busy     : Bool
  done     : Bool
  err      : ErrCode
  calerr   : Bool
  calflags : BitVec 4
  raw      : RegVal
  val      : Double
deriving DecidableEq, Repr

/-- The Link (20_memory.md R62). -/
structure LinkState where
  /-- How many bytes it will accept now: its own choice (R66; notes/assumptions/3.md). -/
  txRoom   : Nat
  /-- The bytes handed over to it so far, oldest first (70_reset_and_hazards.md R233). -/
  txStream : List Byte
  /-- The bytes it has received and the Sequencer has not read, oldest first (10_state.md R38 c, R68). -/
  rxHeld   : List Byte
deriving DecidableEq, Repr

/-- The Host and its program (30_encoding.md R96). -/
structure HostState where
  /-- Statements not yet executed. -/
  program  : List HostStmt
  /-- It polls `STAT` for the command it issued last. -/
  polling  : Bool
  /-- The value the last `MemRead` returned. -/
  readData : Word
  /-- The values the program's `LDW` statements read, oldest first (70_reset_and_hazards.md R233). -/
  observed : List Word
deriving DecidableEq, Repr

/-- The whole state of a run. `pending` and `tick` are the model's own: which agent moves next is read from `pending`,
and when that is empty it is the free value `Config.environment tick` (notes/assumptions/2.md). -/
structure State where
  seq     : SeqRegs
  bank    : BankRegs
  link    : LinkState
  host    : HostState
  log     : List LogRecord
  pending : List Event
  tick    : Nat
deriving DecidableEq, Repr

/-- Why a step stops with a fault. -/
inductive Fault where
  /-- Raised by a Host access of a width other than 32 bits, at an unaligned offset, outside `0x00..0x13`, or a write to
  an offset other than `0x00` (60_exceptions.md R204). Safe: the spec gives the run no meaning past it. -/
  | badHostAccess
  /-- Raised by a Host write to `CMD` while `STAT.BUSY` = 1 (10_state.md R25, 60_exceptions.md R204). Safe: the spec gives
  the run no meaning past it. -/
  | busyViolation
  /-- Raised by the Sequencer where its registers hold a combination for which no rule gives a transition: a finish for an
  opcode that has none, a reserved `TAG` or `DIV` code at the finish of `RDDEC`, a byte count past the end of its frame.
  No state that a run from reset reaches raises it (Safety.lean). Safe (notes/assumptions/7.md). -/
  | noTransition
deriving DecidableEq, Repr

/-- Why an instruction is refused. -/
inductive Refusal where
  /-- Raised by `exec` for an instruction that has no meaning in the model; no instruction of this table is. Safe. -/
  | notModelled (mnemonic : String)
deriving DecidableEq, Repr

/-- What a step answers. -/
abbrev Result := Host.Outcome State Fault Refusal

/-- The Sequencer after block reset (10_state.md R40). -/
def SeqRegs.reset : SeqRegs where
  st      := .idle
  cmd     := 0
  op      := .write
  abyte   := 0
  tx      := #v[0, 0, 0, 0, 0]
  txLen   := 0
  txIdx   := 0
  rx      := #v[0, 0, 0]
  rxNeed  := 0
  rxCnt   := 0
  chk     := 0
  dly     := 0
  txnOk   := false
  txnRaw  := 0
  initIdx := 0

/-- The Host register bank after block reset (10_state.md R40). -/
def BankRegs.reset : BankRegs where
  busy     := false
  done     := false
  err      := .none
  calerr   := false
  calflags := 0
  raw      := 0
  val      := 0

/-- The machine right after block reset, before the agents outside the block have done anything: the block as
10_state.md R40 says. DESIGN CHOICE (unsafe; notes/assumptions/4.md): R40 leaves the Link unspecified, and the streams,
the log, the Host and the schedule are empty here. -/
def State.reset : State where
  seq     := SeqRegs.reset
  bank    := BankRegs.reset
  link    := { txRoom := 0, txStream := [], rxHeld := [] }
  host    := { program := [], polling := false, readData := 0, observed := [] }
  log     := []
  pending := []
  tick    := 0

end Sys2Proof.Machine
end

