-- ==== Sys2Proof/Machine/Flags.lean ====
section
/-! DEFINITION. The status flags: the layout of `STAT` (10_state.md R26), the error codes (60_exceptions.md R200) and the
four calibration tests (43_device_initializer.md R186). -/

namespace Sys2Proof.Machine

/-- The code of `STAT.ERR` (60_exceptions.md R200). -/
def errBits (e : ErrCode) : BitVec 2 :=
  match e with
  | .none => 0
  | .checksum => 1
  | .illegal => 2

/-- The word `STAT` reads as: `CALFLAGS` 11:8, `CALERR` 4, `ERR` 3:2, `DONE` 1, `BUSY` 0, the rest zero
(10_state.md R26). -/
def statWord (b : BankRegs) : Word :=
  (0 : BitVec 20) ++ b.calflags ++ (0 : BitVec 3) ++ BitVec.ofBool b.calerr ++ errBits b.err
    ++ BitVec.ofBool b.done ++ BitVec.ofBool b.busy

/-- The error a transaction's outcome gives: `NONE` if it was Ok, else `CHECKSUM` (41_transaction_engine.md R140). -/
def errOfTxn (ok : Bool) : ErrCode := if ok then .none else .checksum

/-- One calibration test: is a bit of the mask set (43_device_initializer.md R186). -/
def calTest (r mask : RegVal) : Bool := r &&& mask != 0

/-- `CALFLAGS` = {f[3], f[2], f[1], f[0]} for four masks (43_device_initializer.md R186). -/
def calFlagsOf (m0 m1 m2 m3 r : RegVal) : BitVec 4 :=
  BitVec.ofBool (calTest r m3) ++ BitVec.ofBool (calTest r m2) ++ BitVec.ofBool (calTest r m1)
    ++ BitVec.ofBool (calTest r m0)

/-- `CALFLAGS` with the masks of the configuration. -/
def calFlags (r : RegVal) : BitVec 4 :=
  calFlagsOf Config.calMask0 Config.calMask1 Config.calMask2 Config.calMask3 r

/-- `CALERR` = f[0] or f[1] or f[2] or f[3] (43_device_initializer.md R186). -/
def calErr (r : RegVal) : Bool :=
  calTest r Config.calMask0 || calTest r Config.calMask1 || calTest r Config.calMask2 || calTest r Config.calMask3

end Sys2Proof.Machine
end

