-- ==== Sys2Proof/Machine/Ops.lean ====
section
/-! DEFINITION. The named operations over the registers and the Link: accept, complete (with the error of a command: the
block has no trap entry and no trap return, 60_exceptions.md R206, R207), start a transaction, hand a byte over, take a
byte, log a mismatch, reset. Every meaning is written with these. -/

namespace Sys2Proof.Machine

/-! ### Results and completion -/

/-- Writes `RAW` (10_state.md R31). -/
def setRaw (v : RegVal) (s : State) : State := { s with bank := { s.bank with raw := v } }

/-- Writes `VAL_HI:VAL_LO` (10_state.md R32). -/
def setVal (v : Double) (s : State) : State := { s with bank := { s.bank with val := v } }

/-- Writes `CALFLAGS` and `CALERR` from a status register value (43_device_initializer.md R186). -/
def setCal (r : RegVal) (s : State) : State :=
  { s with bank := { s.bank with calflags := calFlags r, calerr := calErr r } }

/-- `complete(ERR = e)`: `ERR`, `BUSY` <- 0, `DONE` <- 1 and `IDLE`, in the same step as the results written before it
(10_state.md R34, 60_exceptions.md R200). -/
def complete (e : ErrCode) (s : State) : State :=
  { s with
    bank := { s.bank with err := e, busy := false, done := true }
    seq := { s.seq with st := .idle } }

/-- `raise IllegalCommand`: an illegal word ends its command (30_encoding.md R86, 60_exceptions.md R201). -/
def raiseIllegal (s : State) : State := complete .illegal s

/-- Accept of a word written to `CMD` (10_state.md R25). -/
def accept (w : Word) (s : State) : State :=
  { s with
    seq := { s.seq with cmd := w }
    bank := { s.bank with busy := true, done := false } }

/-! ### Transactions -/

/-- `s.tx[0..1] <- encode_read(addr)`: the other three bytes stay (41_transaction_engine.md R132). -/
def loadReadFrame (addr : RegAddr) (tx : Vector Byte 5) : Vector Byte 5 :=
  #v[Config.sentinel, addressByte addr .read, tx[2], tx[3], tx[4]]

/-- `s.tx[0..4] <- encode_write(addr, data)` (41_transaction_engine.md R132). -/
def loadWriteFrame (addr : RegAddr) (data : RegVal) : Vector Byte 5 :=
  #v[Config.sentinel, addressByte addr .write, hiByte data, loByte data,
    writeChecksum (addressByte addr .write) data]

/-- `start_txn(kind, addr, data)` (41_transaction_engine.md R132). -/
def startTxn (kind : TxnKind) (addr : RegAddr) (data : RegVal) (s : State) : State :=
  match kind with
  | .read =>
    { s with seq := { s.seq with
        op := .read, abyte := addressByte addr .read, tx := loadReadFrame addr s.seq.tx, txLen := 2, rxNeed := 3,
        chk := 0, txIdx := 0, rxCnt := 0, st := .tx } }
  | .write =>
    { s with seq := { s.seq with
        op := .write, abyte := addressByte addr .write, tx := loadWriteFrame addr data, txLen := 5, rxNeed := 1,
        chk := writeChecksum (addressByte addr .write) data, txIdx := 0, rxCnt := 0, st := .tx } }

/-- `TxSend(b)`: the Link, which has room, takes the byte (20_memory.md R66). -/
def txSend (b : Byte) (s : State) : State :=
  { s with link := { s.link with txRoom := s.link.txRoom - 1, txStream := s.link.txStream ++ [b] } }

/-- What follows the byte sent: the index advances, and after the last byte the settle delay begins
(41_transaction_engine.md R133, R134). -/
def txAdvance (len : BitVec 3) (s : State) : State :=
  if s.seq.txIdx + 1 = len then
    { s with seq := { s.seq with txIdx := s.seq.txIdx + 1, st := .settle, dly := Config.settleDelay } }
  else
    { s with seq := { s.seq with txIdx := s.seq.txIdx + 1 } }

/-- The transmit step for a frame of `len` bytes: it waits while the Link accepts no byte (41_transaction_engine.md R133,
R150). The index counts the frame's bytes already sent, so past its end no rule gives a step (10_state.md R20). -/
def transmit (frame : List Byte) (len : BitVec 3) (s : State) : Result :=
  if s.link.txRoom = 0 then .next s
  else
    match frame[s.seq.txIdx.toNat]? with
    | none => .fault .noTransition
    | some b => .next (txAdvance len (txSend b s))

/-- `b <- RxRecv(); s.rx[s.rx_cnt] <- b; s.rx_cnt <- s.rx_cnt + 1`, the oldest byte the Link holds
(41_transaction_engine.md R137, 20_memory.md R68). -/
def rxTake (b : Byte) (held : List Byte) (s : State) : State :=
  { s with
    link := { s.link with rxHeld := held }
    seq := { s.seq with rx := s.seq.rx.setIfInBounds s.seq.rxCnt.toNat b, rxCnt := s.seq.rxCnt + 1 } }

/-- A validated read: `s.txn_ok <- 1; s.txn_raw <- v` (41_transaction_engine.md R138). -/
def txnReadOk (v : RegVal) (s : State) : State := { s with seq := { s.seq with txnOk := true, txnRaw := v } }

/-- A validated write: `s.txn_ok <- 1` (41_transaction_engine.md R138). -/
def txnWriteOk (s : State) : State := { s with seq := { s.seq with txnOk := true } }

/-- `Log(...)`: the record joins the history and nothing waits for it (60_exceptions.md R208). -/
def logRecord (r : LogRecord) (s : State) : State := { s with log := s.log ++ [r] }

/-- `s.st <- PENALTY; s.dly <- FAIL_DELAY` (41_transaction_engine.md R138). -/
def enterPenalty (s : State) : State := { s with seq := { s.seq with st := .penalty, dly := Config.failDelay } }

/-- A read response whose checksum differs: the sentinel value, one record, the penalty (41_transaction_engine.md
R138). -/
def readMismatch (hi lo chk : Byte) (s : State) : State :=
  enterPenalty (logRecord ⟨.read, s.seq.abyte, readChecksum hi lo, chk⟩
    { s with seq := { s.seq with txnOk := false, txnRaw := Config.readFailRaw } })

/-- An echo that differs: one record, the penalty; `txn_raw` stays (41_transaction_engine.md R138). -/
def writeMismatch (echo : Byte) (s : State) : State :=
  enterPenalty (logRecord ⟨.write, s.seq.abyte, s.seq.chk, echo⟩ { s with seq := { s.seq with txnOk := false } })

/-! ### The Host bank -/

/-- The byte offset of a bank word (10_state.md R24). -/
def bankOffset (r : BankReg) : Nat :=
  match r with
  | .stat => 0x04
  | .raw => 0x08
  | .valLo => 0x0C
  | .valHi => 0x10

/-- The Host's address of a bank offset (20_memory.md R64). -/
def hostAddress (off : Nat) : Nat := Config.hostBase + off

/-- What the word at an offset reads as; none outside the five words (10_state.md R24, R31, R32). -/
def bankWord (off : Nat) (b : BankRegs) : Option Word :=
  if off = 0x00 then some 0
  else if off = 0x04 then some (statWord b)
  else if off = 0x08 then some (b.raw.setWidth 32)
  else if off = 0x0C then some (b.val.extractLsb' 0 32)
  else if off = 0x10 then some (b.val.extractLsb' 32 32)
  else none

/-- Block reset: every field of the block, in one step, from any state; the Link, the log and the Host are not touched
(70_reset_and_hazards.md R220, R222). -/
def blockReset (s : State) : State := { s with seq := SeqRegs.reset, bank := BankRegs.reset }

end Sys2Proof.Machine
end

