-- ==== Sys2Proof/Machine/Initializer.lean ====
section
/-! DEFINITION. `BEGIN` and `CALERR` (43_device_initializer.md). -/

namespace Sys2Proof.Machine

/-- Starts the write of the entry at `init_idx` if the table has one, else completes with `ERR` = `NONE`
(41_transaction_engine.md R131, 43_device_initializer.md R183). -/
def playEntry (table : List InitEntry) (s : State) : State :=
  match table[s.seq.initIdx]? with
  | some e => startTxn .write e.addr e.data s
  | none => complete .none s

/-- Writes `init_idx` (43_device_initializer.md R182). -/
def setInitIdx (n : Nat) (s : State) : State := { s with seq := { s.seq with initIdx := n } }

/-- `BEGIN`, dispatched: the first entry's write, or completion if the table is empty (43_device_initializer.md R183). -/
def execBegin (s : State) : Result := .next (playEntry initTable (setInitIdx 0 s))

/-- `next_init()` for a given table: the next entry's write, or completion; the outcome of the entry just finished is not
looked at (43_device_initializer.md R183, R184, R185). -/
def nextInit (table : List InitEntry) (s : State) : State := playEntry table (setInitIdx (s.seq.initIdx + 1) s)

/-- `CALERR`, dispatched: a read of the system-status register starts (41_transaction_engine.md R131). -/
def execCalerr (s : State) : Result := .next (startTxn .read Config.sysStatusAddr 0 s)

/-- `finish_calerr()`: `ERR`, `RAW`, `CALFLAGS` and `CALERR`, on a failed read from 0xFFFF (43_device_initializer.md R186,
R188). -/
def finishCalerr (s : State) : State :=
  complete (errOfTxn s.seq.txnOk) (setCal s.seq.txnRaw (setRaw s.seq.txnRaw s))

end Sys2Proof.Machine
end

