-- ==== Sys2Proof/Machine/Binary64.lean ====
section
/-! DEFINITION. Binary64 as far as the Telemetry Decoder uses it (42_telemetry_decoder.md R162): conversion of an integer
and division by a positive integer, each the exact rational narrowed once by roundTiesToEven. The layout is bit 63 sign,
bits 62:52 biased exponent, bits 51:0 fraction (93_implementation_defined.md G1). -/

namespace Sys2Proof.Machine

/-- The sign bit. -/
def f64Sign (x : Double) : Bool := x.getLsbD 63

/-- The biased exponent. -/
def f64Exponent (x : Double) : Nat := (x.extractLsb' 52 11).toNat

/-- The fraction. -/
def f64Fraction (x : Double) : Nat := (x.extractLsb' 0 52).toNat

/-- Neither an infinity nor a NaN. -/
def f64Finite (x : Double) : Bool := decide (f64Exponent x ≠ 2047)

/-- The significand of a finite pattern, an integer below 2 to the 53. -/
def f64Significand (x : Double) : Nat :=
  if f64Exponent x = 0 then f64Fraction x else 2 ^ 52 + f64Fraction x

/-- The power of two by which the significand of a finite pattern counts. -/
def f64Scale (x : Double) : Int :=
  if f64Exponent x = 0 then -1074 else (f64Exponent x : Int) - 1075

/-- The number a finite pattern stands for. -/
def f64Value (x : Double) : ℚ :=
  (if f64Sign x then -1 else 1) * (f64Significand x : ℚ) * (2 : ℚ) ^ f64Scale x

/-- A quotient of naturals rounded to the nearest natural, a tie to the even one. -/
def roundQuotient (n d : Nat) : Nat :=
  if 2 * (n % d) > d ∨ (2 * (n % d) = d ∧ n / d % 2 = 1) then n / d + 1 else n / d

/-- The exponent `k` with `2 ^ k ≤ n / d < 2 ^ (k + 1)`, for positive `n` and `d`. -/
def binaryExponent (n d : Nat) : Int :=
  let k : Int := (Nat.log2 n : Int) - (Nat.log2 d : Int)
  if d * 2 ^ k.toNat ≤ n * 2 ^ (-k).toNat then k else k - 1

/-- The magnitude bits (62:0) of the binary64 nearest to `n / d`, ties to even, for positive `d`. The unit in the last
place is `2 ^ e`; a significand that rounds up to 2 to the 53 carries into the exponent field. A quotient of
the Telemetry Decoder never overflows (42_telemetry_decoder.md R165). -/
def roundMagnitude (n d : Nat) : Nat :=
  if n = 0 then 0
  else
    let e : Int := max (binaryExponent n d - 52) (-1074)
    (e + 1074).toNat * 2 ^ 52 + roundQuotient (n * 2 ^ (-e).toNat) (d * 2 ^ e.toNat)

/-- A pattern of a sign and magnitude bits. -/
def f64Pack (sign : Bool) (magnitude : Nat) : Double :=
  BitVec.ofBool sign ++ BitVec.ofNat 63 magnitude

/-- `f64(i)`: the binary64 of an integer; exact for the numerators of the decoder (00_scope.md R10). Zero is `+0.0`
(42_telemetry_decoder.md R165 c). -/
def f64OfInt (i : Int) : Double := f64Pack (decide (i < 0)) (roundMagnitude i.natAbs 1)

/-- `fdiv(x, d)`: the binary64 nearest to the exact quotient of `x` by `d`, ties to even (42_telemetry_decoder.md R162).
A pattern that is not finite, which the decoder never forms, is returned as it is (DESIGN CHOICE; notes/assumptions/9.md).
A quotient that is zero, or that underflows to zero, has the sign of `x`: R162's nearest value does not tell +0.0 from
-0.0 there, and this is the model's choice (PRESUMED, IEEE 754's sign of a quotient; notes/assumptions/16.md); the decoder
forms of these only +0.0 / d (42_telemetry_decoder.md R165 b, c). -/
def fdiv (x : Double) (d : Nat) : Double :=
  if f64Finite x then
    f64Pack (f64Sign x)
      (roundMagnitude (f64Significand x * 2 ^ (f64Scale x).toNat) (d * 2 ^ (-(f64Scale x)).toNat))
  else x

end Sys2Proof.Machine
end

