-- ==== Sys2Proof/Machine/Telemetry.lean ====
section
/-! DEFINITION. The Telemetry Decoder and the commands that reach it, `DECODE` and `RDDEC` (42_telemetry_decoder.md). -/

namespace Sys2Proof.Machine

/-- `scale(x, div)`: the divisions of the code one after the other, each rounded (42_telemetry_decoder.md R163). -/
def scale (x : Double) (div : Div) : Double := (divisorsOf div).foldl fdiv x

/-- `decode(raw, tag, div)` (42_telemetry_decoder.md R161, R164): the integer numerator first, then the scaling; `RAW`
is not scaled. -/
def decodeValue (raw : RegVal) (tag : Tag) (div : Div) : Double :=
  match tag with
  | .raw => f64OfInt (numerator raw .raw)
  | .usc => scale (f64OfInt (numerator raw .usc)) div
  | .sms => scale (f64OfInt (numerator raw .sms)) div

/-- `DECODE`: completes at dispatch with `ERR` = `NONE`, `RAW` and the value (42_telemetry_decoder.md R166). -/
def execDecode (data : RegVal) (tag : Tag) (div : Div) (s : State) : Result :=
  .next (complete .none (setVal (decodeValue data tag div) (setRaw data s)))

/-- `RDDEC`, dispatched: a read transaction of `ADDR` starts; the tag and the divisor stay in the latched word
(41_transaction_engine.md R131, 42_telemetry_decoder.md R167). -/
def execRddec (addr : RegAddr) (_tag : Tag) (_div : Div) (s : State) : Result := .next (startTxn .read addr 0 s)

/-- `finish_rddec()`: `ERR`, `RAW` and the value, the failure sentinel decoded like any reading
(42_telemetry_decoder.md R167). No rule decodes a reserved code. -/
def finishRddec (s : State) : Result :=
  match tagOfCode (tagCodeOf s.seq.cmd), divOfCode (divCodeOf s.seq.cmd) with
  | some tag, some div =>
    .next (complete (errOfTxn s.seq.txnOk)
      (setVal (decodeValue s.seq.txnRaw tag div) (setRaw s.seq.txnRaw s)))
  | _, _ => .fault .noTransition

end Sys2Proof.Machine
end

