-- ==== Sys2Proof/Machine/Transfer.lean ====
section
/-! DEFINITION. `RDREG` and `WRREG` (41_transaction_engine.md R141, R145): their dispatch and their finish. -/

namespace Sys2Proof.Machine

/-- `RDREG`, dispatched: a read transaction of `ADDR` starts (41_transaction_engine.md R131, R141). -/
def execRdreg (addr : RegAddr) (s : State) : Result := .next (startTxn .read addr 0 s)

/-- `RDREG`, finished: `RAW` and `ERR` (41_transaction_engine.md R140, R141). -/
def finishRdreg (s : State) : State := complete (errOfTxn s.seq.txnOk) (setRaw s.seq.txnRaw s)

/-- `WRREG`, dispatched: a write transaction of `DATA` to `ADDR` starts (41_transaction_engine.md R131, R145). -/
def execWrreg (addr : RegAddr) (data : RegVal) (s : State) : Result := .next (startTxn .write addr data s)

/-- `WRREG`, finished: `ERR` only (41_transaction_engine.md R140, R145). -/
def finishWrreg (s : State) : State := complete (errOfTxn s.seq.txnOk) s

end Sys2Proof.Machine
end

