-- ==== Sys2Proof/Machine/Frames.lean ====
section
/-! DEFINITION. What the block does with each wire frame: it sends the bytes of a request one per step
(41_transaction_engine.md R133), and it validates a response in the step of its last byte (R138), handing the outcome to
the command in flight (R140). -/

namespace Sys2Proof.Machine

/-- `finish()`: the outcome goes to the command latched in `s.cmd`, by its opcode (41_transaction_engine.md R140). The
rule lists no other opcode. -/
def finish (s : State) : Result :=
  if opcOf s.seq.cmd = 0x1 then .next (finishRdreg s)
  else if opcOf s.seq.cmd = 0x2 then .next (finishWrreg s)
  else if opcOf s.seq.cmd = 0x3 then finishRddec s
  else if opcOf s.seq.cmd = 0x5 then .next (nextInit initTable s)
  else if opcOf s.seq.cmd = 0x6 then .next (finishCalerr s)
  else .fault .noTransition

/-- `FRAME_RD_REQ`: the next of its two bytes is handed over (40_frame_codec.md R114, 41_transaction_engine.md R133). -/
def execFrameRdReq (addr : RegAddr) (s : State) : Result := transmit (encodeRead addr) 2 s

/-- `FRAME_WR_REQ`: the next of its five bytes is handed over (40_frame_codec.md R115, 41_transaction_engine.md R133). -/
def execFrameWrReq (addr : RegAddr) (data : RegVal) (s : State) : Result := transmit (encodeWrite addr data) 5 s

/-- `FRAME_RD_RESP`: `decode_read`, then `finish()` or the penalty (40_frame_codec.md R116, 41_transaction_engine.md
R138). -/
def execFrameRdResp (hi lo chk : Byte) (s : State) : Result :=
  match decodeRead hi lo chk with
  | some v => finish (txnReadOk v s)
  | none => .next (readMismatch hi lo chk s)

/-- `FRAME_WR_ACK`: `check_ack` against the stored checksum, then `finish()` or the penalty (40_frame_codec.md R117,
41_transaction_engine.md R138). -/
def execFrameWrAck (echo : Byte) (s : State) : Result :=
  if checkAck echo s.seq.chk then finish (txnWriteOk s) else .next (writeMismatch echo s)

end Sys2Proof.Machine
end

