-- ==== Sys2Proof/Machine/Dispatch.lean ====
section
/-! DEFINITION. One arm per row of the opcode table, each one call of that row's meaning. -/

namespace Sys2Proof.Machine

def exec (i : Instr) (s : State) : Host.Outcome State Fault Refusal :=
  match i with
  | .rdreg addr => Sys2Proof.Machine.execRdreg addr s
  | .wrreg addr data => Sys2Proof.Machine.execWrreg addr data s
  | .rddec addr tag div => Sys2Proof.Machine.execRddec addr tag div s
  | .decode data tag div => Sys2Proof.Machine.execDecode data tag div s
  | .beginInit => Sys2Proof.Machine.execBegin s
  | .calerr => Sys2Proof.Machine.execCalerr s
  | .frameRdReq addr => Sys2Proof.Machine.execFrameRdReq addr s
  | .frameWrReq addr data => Sys2Proof.Machine.execFrameWrReq addr data s
  | .frameRdResp hi lo chk => Sys2Proof.Machine.execFrameRdResp hi lo chk s
  | .frameWrAck echo => Sys2Proof.Machine.execFrameWrAck echo s

end Sys2Proof.Machine
end

