-- ==== Sys2Proof/Machine/Sequencer.lean ====
section
/-! DEFINITION. The Sequencer's step (41_transaction_engine.md R130 to R139): the transition of its state, if one is
enabled. What it runs is fetched where it stands: a command from `s.cmd`, a request frame from `s.tx`, a response from
`s.rx` once its last byte is there. -/

namespace Sys2Proof.Machine

/-- Dispatch of the latched word; an illegal one completes (41_transaction_engine.md R131, 30_encoding.md R86). -/
def seqDispatch (s : State) : Result :=
  match decode (.command s.seq.cmd) with
  | .ok i => exec i s
  | .error _ => .next (raiseIllegal s)

/-- The request frame in the buffer. -/
def requestCode (s : State) : Code := .request (s.seq.tx.toList.take s.seq.txLen.toNat)

/-- Transmit of the frame in the buffer; bytes that are no frame, which `start_txn` never loads, are sent all the same
(41_transaction_engine.md R133). -/
def seqTransmit (s : State) : Result :=
  match decode (requestCode s) with
  | .ok i => exec i s
  | .error _ => transmit s.seq.tx.toList s.seq.txLen s

/-- Settle: one step with no effect but the state change (41_transaction_engine.md R135). -/
def seqSettle (s : State) : State := { s with seq := { s.seq with st := .rx } }

/-- The response in the buffer, of the kind the transaction expects (30_encoding.md R93). -/
def responseCode (s : State) : Code :=
  match s.seq.op with
  | .read => .readResponse [s.seq.rx[0], s.seq.rx[1], s.seq.rx[2]]
  | .write => .writeAck [s.seq.rx[0]]

/-- `validate()` (41_transaction_engine.md R138). A response of the right number of bytes always decodes. -/
def validate (s : State) : Result :=
  match decode (responseCode s) with
  | .ok i => exec i s
  | .error _ => .fault .noTransition

/-- Receive: it waits while the Link holds no byte (41_transaction_engine.md R137, R150); the buffer has no fourth
byte. -/
def seqReceive (s : State) : Result :=
  match s.link.rxHeld with
  | [] => .next s
  | b :: held =>
    if s.seq.rxCnt = 3 then .fault .noTransition
    else if (rxTake b held s).seq.rxCnt = s.seq.rxNeed then validate (rxTake b held s)
    else .next (rxTake b held s)

/-- The Sequencer's step; in `IDLE` with `BUSY` = 0 it has none (41_transaction_engine.md R130). -/
def seqStep (s : State) : Result :=
  match s.seq.st with
  | .idle => if s.bank.busy then seqDispatch s else .next s
  | .tx => seqTransmit s
  | .settle => .next (seqSettle s)
  | .rx => seqReceive s
  | .penalty => finish s

end Sys2Proof.Machine
end

