-- ==== Sys2Proof/Machine/Agents.lean ====
section
/-! DEFINITION. The agents around the Sequencer: the Host's accesses to the bank (20_memory.md R60) and its program
(30_encoding.md R96), the Link's liberties (R66, R67), and block reset; and one action of any of them. -/

namespace Sys2Proof.Machine

/-- `MemRead(off, bytes)`: no side effect on the block (20_memory.md R70); a whole aligned word of the bank or a model
fault (20_memory.md R60, 60_exceptions.md R204). -/
def hostRead (off bytes : Nat) (s : State) : Result :=
  if bytes = 4 then
    match bankWord off s.bank with
    | some v => .next { s with host := { s.host with readData := v } }
    | none => .fault .badHostAccess
  else .fault .badHostAccess

/-- `MemWrite(off, bytes, v)`: only a whole word to `CMD`, and only while `BUSY` = 0 (10_state.md R24, R25,
60_exceptions.md R204). -/
def hostWrite (off bytes : Nat) (v : Word) (s : State) : Result :=
  if bytes = 4 ∧ off = 0x00 then
    if s.bank.busy then .fault .busyViolation else .next (accept v s)
  else .fault .badHostAccess

/-- One Host access. -/
def hostAct (a : HostAccess) (s : State) : Result :=
  match a with
  | .read off bytes => hostRead off bytes s
  | .write off bytes v => hostWrite off bytes v s

/-- `LDW name`: one `MemRead` of that word, recorded as the program's observation (30_encoding.md R96). -/
def recordObservation (s : State) : State :=
  { s with host := { s.host with observed := s.host.observed ++ [s.host.readData] } }

/-- A poll has seen `STAT`: it goes on until `DONE` = 1 (30_encoding.md R96). -/
def pollSeen (s : State) : State :=
  { s with host := { s.host with polling := !s.host.readData.getLsbD 1 } }

/-- The next access of the Host program: a poll of `STAT` if it waits for a command, else its next statement
(30_encoding.md R96). -/
def hostProgramStep (s : State) : Result :=
  if s.host.polling then
    match hostRead (bankOffset .stat) 4 s with
    | .next t => .next (pollSeen t)
    | .fault f => .fault f
    | .refused r => .refused r
  else
    match s.host.program with
    | [] => .next s
    | .issue w :: rest => hostWrite 0x00 4 w { s with host := { s.host with program := rest, polling := true } }
    | .ldw r :: rest =>
      match hostRead (bankOffset r) 4 { s with host := { s.host with program := rest } } with
      | .next t => .next (recordObservation t)
      | .fault f => .fault f
      | .refused r => .refused r

/-- The Link will accept one more byte (20_memory.md R66). -/
def linkAccepts (s : State) : State := { s with link := { s.link with txRoom := s.link.txRoom + 1 } }

/-- One more byte joins those the Link holds (20_memory.md R67, R68). -/
def linkDelivers (b : Byte) (s : State) : State :=
  { s with link := { s.link with rxHeld := s.link.rxHeld ++ [b] } }

/-- A statement joins the Host program. -/
def hostLoads (st : HostStmt) (s : State) : State :=
  { s with host := { s.host with program := s.host.program ++ [st] } }

/-- One action of one agent (00_scope.md R4, 70_reset_and_hazards.md R234). -/
def act (e : Event) (s : State) : Result :=
  match e with
  | .sequencer => seqStep s
  | .linkAccepts => .next (linkAccepts s)
  | .linkDelivers b => .next (linkDelivers b s)
  | .hostAccess a => hostAct a s
  | .hostLoads st => .next (hostLoads st s)
  | .hostProgram => hostProgramStep s
  | .reset => .next (blockReset s)

/-- The event that comes next: the first one scheduled, or the free value for this tick; and the state with that choice
spent (notes/assumptions/2.md). -/
def nextEvent (s : State) : Event × State :=
  match s.pending with
  | e :: rest => (e, { s with pending := rest })
  | [] => (Config.environment s.tick, { s with tick := s.tick + 1 })

end Sys2Proof.Machine
end

