-- ==== Sys2Proof/Machine/Placement.lean ====
section
/-! DEFINITION. Where the block fetches what it runs, and how a given instruction is put there so that the next step runs
it (notes/assumptions/10.md): a command in `s.cmd` after an accept, a request frame in `s.tx` with the Link ready for a
byte, a response in `s.rx` with its last byte held by the Link. The block has no program counter and fetches from no
memory (10_state.md R21, 20_memory.md R75). -/

namespace Sys2Proof.Machine

/-- The command whose transaction sends a request frame of these bytes. -/
def ownerWord (bs : List Byte) : Word :=
  if (bs.getD 1 0).getLsbD 7 then commandWord 0x1 0 0 ((bs.getD 1 0).setWidth 7) 0
  else commandWord 0x2 0 0 ((bs.getD 1 0).setWidth 7) (wordOfBytes (bs.getD 2 0) (bs.getD 3 0))

/-- `s` with a request frame ready to be sent, from its first byte. -/
def placeRequest (bs : List Byte) (s : State) : State :=
  { s with
    seq := { s.seq with
      st := .tx
      cmd := ownerWord bs
      op := if (bs.getD 1 0).getLsbD 7 then .read else .write
      abyte := bs.getD 1 0
      tx := #v[bs.getD 0 0, bs.getD 1 0, bs.getD 2 0, bs.getD 3 0, bs.getD 4 0]
      txLen := BitVec.ofNat 3 bs.length
      txIdx := 0
      rxNeed := if (bs.getD 1 0).getLsbD 7 then 3 else 1
      rxCnt := 0
      chk := bs.getD 4 0 }
    bank := { s.bank with busy := true, done := false }
    link := { s.link with txRoom := s.link.txRoom + 1 } }

/-- `s` with a read of register 0 in flight that has received two bytes, the third one held by the Link. -/
def placeReadResponse (hi lo chk : Byte) (s : State) : State :=
  let t := startTxn .read 0 0 (accept (commandWord 0x1 0 0 0 0) s)
  { t with
    seq := { t.seq with st := .rx, txIdx := 2, rx := #v[hi, lo, 0], rxCnt := 2 }
    link := { t.link with rxHeld := chk :: t.link.rxHeld } }

/-- `s` with a write of zero to register 0 in flight (its checksum is zero), the echo held by the Link. -/
def placeWriteAck (echo : Byte) (s : State) : State :=
  let t := startTxn .write 0 0 (accept (commandWord 0x2 0 0 0 0) s)
  { t with
    seq := { t.seq with st := .rx, txIdx := 5 }
    link := { t.link with rxHeld := echo :: t.link.rxHeld } }

/-- `s` with an encoded instruction where the Sequencer's next step fetches it, and that step scheduled first. A response
of another number of bytes than three or one is nowhere fetched, and nothing is placed. -/
def placeCode (c : Code) (s : State) : State :=
  match c with
  | .command w => { accept w s with
      seq := { s.seq with cmd := w, st := .idle }, pending := .sequencer :: s.pending }
  | .request bs => { placeRequest bs s with pending := .sequencer :: s.pending }
  | .readResponse [hi, lo, chk] => { placeReadResponse hi lo chk s with pending := .sequencer :: s.pending }
  | .writeAck [echo] => { placeWriteAck echo s with pending := .sequencer :: s.pending }
  | _ => s

/-- `placeCode` of an opcode-table word. -/
def placeTableWord (nbits w : Nat) (s : State) : State :=
  match codeOfTableWord nbits w with
  | some c => placeCode c s
  | none => s

end Sys2Proof.Machine
end

