-- ==== Sys2Proof/Machine/Step.lean ====
section
/-! DEFINITION. One step of a run: the next event, acted. -/

namespace Sys2Proof.Machine

/-- One action of one agent, the scheduled one or the free value's. -/
def step (s : State) : Host.Outcome State Fault Refusal :=
  act (nextEvent s).1 (nextEvent s).2

/-- `s` with the instruction of an opcode-table word where the next step fetches and runs it. -/
def State.withFetchWord (s : State) (nbits w : Nat) : State := placeTableWord nbits w s

end Sys2Proof.Machine
end

