-- ==== Sys2Proof/Machine/Assembler.lean ====
section
/-! DEFINITION. Host programs as they are written (30_encoding.md R96) and the per-quantity accessors (R98, R99), which
expand to commands; the block knows neither. Lexical text is left out (notes/assumptions/11.md). -/

namespace Sys2Proof.Machine

/-- The expansion of a pseudo-instruction (30_encoding.md R99). -/
def expandPseudo (p : Pseudo) : Instr :=
  match p with
  | .readreg a => .rdreg a
  | .writereg a d => .wrreg a d
  | .getv p => .rddec (Config.regAddr (.voltage p)) .usc .d100
  | .geti p => .rddec (Config.regAddr (.current p)) .usc .d1000
  | .getp p => .rddec (Config.regAddr (.phasePower .active p)) (Config.powerTag .active) .d1000
  | .getq p => .rddec (Config.regAddr (.phasePower .reactive p)) (Config.powerTag .reactive) .d1000
  | .gets p => .rddec (Config.regAddr (.phasePower .apparent p)) (Config.powerTag .apparent) .d1000
  | .getpt => .rddec (Config.regAddr (.totalPower .active)) (Config.powerTag .active) .d250
  | .getqt => .rddec (Config.regAddr (.totalPower .reactive)) (Config.powerTag .reactive) .d250
  | .getst => .rddec (Config.regAddr (.totalPower .apparent)) (Config.powerTag .apparent) .d250
  | .getfreq => .rddec (Config.regAddr .frequency) .usc .d100
  | .getpf q => .rddec (Config.regAddr (.powerFactor q)) .sms .d1000
  | .getang q => .rddec (Config.regAddr (.phaseAngle q)) .usc .d10
  | .gettemp => .rddec (Config.regAddr .temperature) .raw .d1
  | .gete q => .rddec (Config.regAddr (.energy q)) .usc .denergy
  | .caliberr => .calerr

/-- The word a command is written to `CMD` as; a wire frame is no command (00_scope.md R11). -/
def commandWordOf (i : Instr) : Option Word :=
  match encode i with
  | .command w => some w
  | _ => none

/-- The statement a command stands for: the write of its word and the wait for `DONE` (30_encoding.md R96). -/
def issueOf (i : Instr) : Option HostStmt := (commandWordOf i).map .issue

/-- The assembler: it rejects an operand out of range and nothing else; a pair (`TAG`, `DIV`) that is not legal assembles
to an illegal word (30_encoding.md R96). -/
def assemble (st : AsmStmt) : Option HostStmt :=
  match st with
  | .rdreg a => if a < 128 then issueOf (.rdreg (BitVec.ofNat 7 a)) else none
  | .wrreg a d => if a < 128 ∧ d < 65536 then issueOf (.wrreg (BitVec.ofNat 7 a) (BitVec.ofNat 16 d)) else none
  | .rddec a tag div => if a < 128 then issueOf (.rddec (BitVec.ofNat 7 a) tag div) else none
  | .decode d tag div => if d < 65536 then issueOf (.decode (BitVec.ofNat 16 d) tag div) else none
  | .beginInit => issueOf .beginInit
  | .calerr => issueOf .calerr
  | .ldw r => some (.ldw r)
  | .word w => if w < 2 ^ 32 then some (.issue (BitVec.ofNat 32 w)) else none
  | .pseudo p => issueOf (expandPseudo p)

/-- A program assembles if each statement does. -/
def assembleProgram (p : List AsmStmt) : Option (List HostStmt) := p.mapM assemble

end Sys2Proof.Machine
end

