-- ==== Sys2Proof/Safety.lean ====
section
/-! DEFINITION. What counts as a safe run, in the terms the statements use: the invariant of the machine, the Host's duties
(70_reset_and_hazards.md R234), the end of a run and its observation (R233). -/

namespace Sys2Proof

open Sys2Proof.Machine

/-! ### The invariant -/

/-- The wire transaction that a command in flight performs: its kind, address and data (41_transaction_engine.md R131,
43_device_initializer.md R183); `idx` is `init_idx`. `DECODE` performs none, and a wire frame is no command. -/
def txnOfCommand (i : Instr) (idx : Nat) : Option (TxnKind × RegAddr × RegVal) :=
  match i with
  | .rdreg addr => some (.read, addr, 0)
  | .wrreg addr data => some (.write, addr, data)
  | .rddec addr _ _ => some (.read, addr, 0)
  | .decode _ _ _ => none
  | .beginInit => (initTable[idx]?).map (fun e => (.write, e.addr, e.data))
  | .calerr => some (.read, Config.sysStatusAddr, 0)
  | .frameRdReq _ => none
  | .frameWrReq _ _ => none
  | .frameRdResp _ _ _ => none
  | .frameWrAck _ => none

/-- The request frame of a transaction (40_frame_codec.md R114, R115). -/
def frameOf (kind : TxnKind) (addr : RegAddr) (data : RegVal) : List Byte :=
  match kind with
  | .read => encodeRead addr
  | .write => encodeWrite addr data

/-- The checksum kept for the echo (41_transaction_engine.md R132). -/
def checksumOf (kind : TxnKind) (addr : RegAddr) (data : RegVal) : Byte :=
  match kind with
  | .read => 0
  | .write => writeChecksum (addressByte addr .write) data

/-- The response length (41_transaction_engine.md R136). -/
def responseLength (kind : TxnKind) : BitVec 2 :=
  match kind with
  | .read => 3
  | .write => 1

/-- The Sequencer holds this transaction, as `start_txn` loaded it (41_transaction_engine.md R132). -/
structure TxnLoaded (q : SeqRegs) (kind : TxnKind) (addr : RegAddr) (data : RegVal) : Prop where
  op     : q.op = kind
  abyte  : q.abyte = addressByte addr kind
  frame  : q.tx.toList.take q.txLen.toNat = frameOf kind addr data
  txLen  : q.txLen.toNat = (frameOf kind addr data).length
  rxNeed : q.rxNeed = responseLength kind
  chk    : q.chk = checksumOf kind addr data

/-- The byte counts and outcome registers that go with the Sequencer's state (10_state.md R20, 41_transaction_engine.md
R133 to R139). -/
def phaseOk (q : SeqRegs) : Prop :=
  match q.st with
  | .idle => True
  | .tx => q.txIdx.toNat < q.txLen.toNat ∧ q.rxCnt = 0
  | .settle => q.txIdx = q.txLen ∧ q.rxCnt = 0
  | .rx => q.txIdx = q.txLen ∧ q.rxCnt.toNat < q.rxNeed.toNat
  | .penalty => q.txIdx = q.txLen ∧ q.rxCnt = q.rxNeed ∧ q.txnOk = false
      ∧ (q.op = .read → q.txnRaw = Config.readFailRaw)

/-- A transaction in flight belongs to a legal command that is busy, and the Sequencer holds what that command loaded. -/
structure InFlight (s : State) : Prop where
  busy   : s.bank.busy = true
  loaded : ∃ i kind addr data, decode (.command s.seq.cmd) = .ok i
    ∧ txnOfCommand i s.seq.initIdx = some (kind, addr, data) ∧ TxnLoaded s.seq kind addr data
  phase  : phaseOk s.seq

/-- The invariant of the machine. -/
structure Inv (s : State) : Prop where
  /-- `BUSY` and `DONE` are never both 1 (10_state.md R26). -/
  notBoth  : ¬(s.bank.busy = true ∧ s.bank.done = true)
  /-- `CALERR` is the or of `CALFLAGS` (43_device_initializer.md R186; both reset to 0). -/
  calerr   : s.bank.calerr = (s.bank.calflags != 0)
  /-- The delay counter fits `DELAY_WIDTH` (00_scope.md R7). -/
  dly      : s.seq.dly < 2 ^ Config.delayWidth
  /-- `init_idx` never passes the table's length (10_state.md R21, 43_device_initializer.md R182). -/
  initIdx  : s.seq.initIdx ≤ initTable.length
  /-- Outside `IDLE` a transaction is in flight. -/
  inFlight : s.seq.st ≠ .idle → InFlight s

/-! ### The Host's duties, the end of a run, the observation -/

/-- The Host keeps its duties in an access: a 32-bit access to one of the five words, a write only to `CMD` and only while
`BUSY` = 0 (70_reset_and_hazards.md R234). -/
def hostKeepsDuties (a : HostAccess) (s : State) : Bool :=
  match a with
  | .read off bytes => decide (bytes = 4) && decide (off % 4 = 0) && decide (off ≤ 0x13)
  | .write off bytes _ => decide (bytes = 4) && decide (off = 0) && !s.bank.busy

/-- A run of the Host's program has ended: every statement executed, the last command completed, no fault recorded (a fault
is no state) (70_reset_and_hazards.md R233). -/
def Machine.State.ended (s : State) : Bool :=
  s.host.program.isEmpty && !s.host.polling && decide (s.seq.st = .idle) && !s.bank.busy

/-- The observation of a run: the `LDW` values, the transmitted bytes, the `LOG` records (70_reset_and_hazards.md R233). -/
structure Observation where
  ldw  : List Word
  sent : List Byte
  log  : List LogRecord
deriving DecidableEq, Repr

/-- What a run has shown so far. -/
def Machine.State.observation (s : State) : Observation := ⟨s.host.observed, s.link.txStream, s.log⟩

end Sys2Proof
end

