-- ==== Sys2Proof/Certificates/Slice0/Obligations.lean ====
section
/-! DEFINITION. The statements for the provers, in the order of the spec's files: reset and the Host bank, encodings, the
step, the Frame Codec, the commands from dispatch to completion, the Telemetry Decoder, the invariant and what it gives,
the whole-machine rules. -/

open Sys2Proof Sys2Proof.Machine

/-! ### Words the statements share -/

/-- The schedule gives the next `n` steps to the Sequencer. -/
def Sys2Proof.Scheduled (n : Nat) (rest : List Event) (s : State) : Prop :=
  s.pending = List.replicate n Event.sequencer ++ rest

/-- `n` steps of the machine lead from `s` to `u`. -/
def Sys2Proof.RunsTo (n : Nat) (s u : State) : Prop := Host.Core.run Sys2Proof.core n s = .next u

/-- `u` is `s` after a command that left the Host alone, emitted these records, sent these bytes and left these bytes held
by the Link, with the Sequencer back in `IDLE` and its schedule spent. -/
def Sys2Proof.AfterCommand (s u : State) (sent held : List Byte) (records : List LogRecord) (rest : List Event) : Prop :=
  u.seq.st = .idle ∧ u.seq.cmd = s.seq.cmd ∧ u.host = s.host ∧ u.pending = rest ∧ u.tick = s.tick ∧
  u.log = s.log ++ records ∧
  u.link = { txRoom := s.link.txRoom - sent.length, txStream := s.link.txStream ++ sent, rxHeld := held }

/-- The Sequencer steps that `BEGIN` takes after its dispatch: seven for an entry, one more for a bad echo. -/
def Sys2Proof.beginSteps (table : List InitEntry) (echoes : List Byte) : Nat :=
  ((table.zip echoes).map fun p =>
    if p.2 = hiByte p.1.data + loByte p.1.data + addressByte p.1.addr .write then 7 else 8).sum

/-- The `LOG` records of `BEGIN`: one for each bad echo, in the order of the table. -/
def Sys2Proof.beginRecords (table : List InitEntry) (echoes : List Byte) : List LogRecord :=
  (table.zip echoes).filterMap fun p =>
    if p.2 = hiByte p.1.data + loByte p.1.data + addressByte p.1.addr .write then none
    else some ⟨.write, addressByte p.1.addr .write,
      hiByte p.1.data + loByte p.1.data + addressByte p.1.addr .write, p.2⟩

/-! ### Reset and the Host bank -/

/-- R40, R220: reset puts every field of the block at its reset value, from any state, and touches nothing else; the state
right after reset has those values; and after it the Sequencer has no step. -/
def Obligations.ResetPutsEveryFieldAtItsResetValue : Prop :=
  ∀ s : State, ∃ t, act .reset s = .next t ∧ seqStep t = .next t ∧
    t = { s with
      seq := { st := .idle, cmd := 0, op := .write, abyte := 0, tx := #v[0, 0, 0, 0, 0], txLen := 0, txIdx := 0,
               rx := #v[0, 0, 0], rxNeed := 0, rxCnt := 0, chk := 0, dly := 0, txnOk := false, txnRaw := 0,
               initIdx := 0 }
      bank := { busy := false, done := false, err := .none, calerr := false, calflags := 0, raw := 0, val := 0 } } ∧
    State.reset.seq = t.seq ∧ State.reset.bank = t.bank

/-- R25: a write to `CMD` latches the word and sets `BUSY`, and the Sequencer's next step executes it; while `BUSY` = 1 it
is a `BusyViolation`. -/
def Obligations.AcceptLatchesTheWordOrFaults : Prop :=
  ∀ (s : State) (w : Word) (rest : List Event),
    s.pending = .hostAccess (.write 0x00 4 w) :: .sequencer :: rest →
    (s.bank.busy = true → step s = .fault .busyViolation) ∧
    (s.bank.busy = false → ∃ t, step s = .next t ∧
      t = { s with
        seq := { s.seq with cmd := w }
        bank := { s.bank with busy := true, done := false }
        pending := .sequencer :: rest } ∧
      (s.seq.st = .idle → step t = seqDispatch { t with pending := rest }))

/-- R24, R60, R204, R234: an access answers a next state exactly when it keeps the Host's duties; a breach is
`BusyViolation` for an aligned 32-bit write to `CMD`, and `BadHostAccess` for anything else. -/
def Obligations.HostAccessesFaultExactlyOutsideTheDuties : Prop :=
  ∀ (a : HostAccess) (s : State),
    (hostKeepsDuties a s = true ↔ ∃ t, hostAct a s = .next t) ∧
    (hostKeepsDuties a s = false →
      hostAct a s = .fault (match a with
        | .read _ _ => .badHostAccess
        | .write off bytes _ => if off = 0x00 ∧ bytes = 4 then .busyViolation else .badHostAccess))

/-- R24, R26, R31, R32: what each bank word reads as, bit by bit, and that reading changes only the value the Host
holds. -/
def Obligations.BankWordsReadByTheirLayout : Prop :=
  ∀ (s : State) (off : Nat), off % 4 = 0 → off ≤ 0x13 →
    ∃ v : Word, hostAct (.read off 4) s = .next { s with host := { s.host with readData := v } } ∧
      (off = 0x00 → v = 0) ∧
      (off = 0x04 → ∀ i, v.getLsbD i =
        (if i = 0 then s.bank.busy else if i = 1 then s.bank.done
         else if i = 2 then decide (s.bank.err = .checksum) else if i = 3 then decide (s.bank.err = .illegal)
         else if i = 4 then s.bank.calerr
         else if 8 ≤ i ∧ i < 12 then s.bank.calflags.getLsbD (i - 8) else false)) ∧
      (off = 0x08 → v.toNat = s.bank.raw.toNat) ∧
      (off = 0x0C → v.toNat = s.bank.val.toNat % 2 ^ 32) ∧
      (off = 0x10 → v.toNat = s.bank.val.toNat / 2 ^ 32)

/-- R96: a command statement of a Host program writes its word to `CMD` and then polls `STAT` until it reads `DONE` = 1; an
`LDW` reads its word once and records it. -/
def Obligations.HostProgramIssuesPollsAndObserves : Prop :=
  ∀ (s : State),
    (s.host.polling = true → hostProgramStep s = .next { s with host := { s.host with
      readData := statWord s.bank, polling := !s.bank.done } }) ∧
    (∀ w rest, s.host.polling = false → s.host.program = .issue w :: rest → s.bank.busy = false →
      hostProgramStep s = .next { s with
        host := { s.host with program := rest, polling := true }
        seq := { s.seq with cmd := w }
        bank := { s.bank with busy := true, done := false } }) ∧
    (∀ r rest, s.host.polling = false → s.host.program = .ldw r :: rest →
      ∃ v, bankWord (bankOffset r) s.bank = some v ∧
        hostProgramStep s = .next { s with host := { s.host with
          program := rest, readData := v, observed := s.host.observed ++ [v] } })

/-- R96: the assembler rejects exactly the statements with an operand out of range. -/
def Obligations.AssemblerRejectsExactlyOperandsOutOfRange : Prop :=
  ∀ st : AsmStmt, assemble st = none ↔
    match st with
    | .rdreg a => 2 ^ 7 ≤ a
    | .wrreg a d => 2 ^ 7 ≤ a ∨ 2 ^ 16 ≤ d
    | .rddec a _ _ => 2 ^ 7 ≤ a
    | .decode d _ _ => 2 ^ 16 ≤ d
    | .beginInit => False
    | .calerr => False
    | .ldw _ => False
    | .word w => 2 ^ 32 ≤ w
    | .pseudo _ => False

/-! ### Encodings -/

/-- R80 to R84, R90 to R92: decoding an encoded well-formed instruction gives it back, for every instruction and every
value of its operands. -/
def Obligations.DecodeOfEncodeIsTheInstruction : Prop :=
  ∀ i : Instr, i.wf = true → decode (encode i) = .ok i

/-- R84, R87, R90 to R92: what the decoder accepts is the encoding of what it answers, and that is well-formed: no word or
frame has a second reading and no bit of it is ignored. -/
def Obligations.EncodeOfDecodeIsTheCode : Prop :=
  ∀ (c : Code) (i : Instr), decode c = .ok i → encode i = c ∧ i.wf = true

/-- The table word of an encoded instruction, of the table's width, is read back. How the bits of a command word or of a
frame are numbered as one table word (the byte sent first on the wire most significant) is the model's choice, DESIGN
CHOICE of notes/assumptions/10.md: R84 and R90 to R93 give the fields and the order of the bytes, and no such number. -/
def Obligations.TableWordOfAnInstructionIsReadBack : Prop :=
  ∀ i : Instr, i.wf = true → decodeTableWord i.tableBits (encode i).tableWord = some i

/-- R85: the legality test, with its masks and applied at the first Sequencer step after accept, is what the decoder
accepts: a legal word is executed and another completes. -/
def Obligations.LegalityTestIsTheDecodersAcceptance : Prop :=
  ∀ w : Word,
    let div := w >>> 25 &&& 7
    let tag := w >>> 23 &&& 3
    let ruleOk : Prop := (tag = 0 ∧ div = 0) ∨ ((tag = 1 ∨ tag = 2) ∧ div ≤ 5)
    let legal : Prop :=
      (w >>> 28 = 1 ∧ w &&& 0x0F80FFFF = 0) ∨ (w >>> 28 = 2 ∧ w &&& 0x0F800000 = 0) ∨
      (w >>> 28 = 3 ∧ w &&& 0x0000FFFF = 0 ∧ ruleOk) ∨ (w >>> 28 = 4 ∧ w &&& 0x007F0000 = 0 ∧ ruleOk) ∨
      (w >>> 28 = 5 ∧ w &&& 0x0FFFFFFF = 0) ∨ (w >>> 28 = 6 ∧ w &&& 0x0FFFFFFF = 0)
    (legal ↔ ∃ i, decode (.command w) = .ok i) ∧ (legal ↔ legalWord w = true) ∧
    ∀ s : State, s.seq.st = .idle → s.bank.busy = true → s.seq.cmd = w →
      (legal → ∃ i, decode (.command w) = .ok i ∧ seqStep s = exec i s) ∧
      (¬legal → seqStep s = .next (complete .illegal s))

/-- R86, R87: a word with an opcode that is not assigned, a reserved tag or divisor, a scaled `RAW`, or a bit set in a field
its opcode does not use completes in one step with `ILLEGAL`; no byte moves, no delay is taken, and no other result
changes. -/
def Obligations.IllegalWordsCompleteWithIllegal : Prop :=
  ∀ (s : State) (opc : BitVec 4) (div : BitVec 3) (tag : BitVec 2) (addr : RegAddr) (data : RegVal),
    s.seq.st = .idle → s.bank.busy = true → s.seq.cmd = commandWord opc div tag addr data →
    (opc = 0 ∨ 7 ≤ opc.toNat) ∨
      ((opc = 3 ∨ opc = 4) ∧ (tag = 3 ∨ div = 6 ∨ div = 7 ∨ (tag = 0 ∧ div ≠ 0))) ∨
      ((opc = 1 ∨ opc = 2 ∨ opc = 5 ∨ opc = 6) ∧ (div ≠ 0 ∨ tag ≠ 0)) ∨
      ((opc = 4 ∨ opc = 5 ∨ opc = 6) ∧ addr ≠ 0) ∨
      ((opc = 1 ∨ opc = 3 ∨ opc = 5 ∨ opc = 6) ∧ data ≠ 0) →
    seqStep s = .next { s with
      seq := { s.seq with st := .idle }
      bank := { s.bank with err := .illegal, busy := false, done := true } }

/-- R97: the spec's own examples of command words: each is the encoding of its command and decodes to it. -/
def Obligations.SpecExampleWordsAreTheirCommands : Prop :=
  ∀ p ∈ [(Instr.rdreg 0x01, (0x10010000 : Word)), (.wrreg 0x01 0x1234, 0x20011234), (.rddec 0x01 .usc .d100, 0x34810000),
      (.rddec 0x7F .usc .denergy, 0x3AFF0000), (.rddec 0x7F .raw .d1, 0x307F0000),
      (.decode 0x8005 .sms .d1000, 0x49008005), (.beginInit, 0x50000000), (.calerr, 0x60000000)],
    encode p.1 = .command p.2 ∧ decode (.command p.2) = .ok p.1

/-- R93, R94: request frames sent one after the other are told apart by their lengths alone, whatever their bytes: a stream
of any read and write requests is read back frame by frame. -/
def Obligations.RequestStreamsAreReadBackByLength : Prop :=
  ∀ frames : List Instr,
    (∀ i ∈ frames, (∃ addr, i = .frameRdReq addr) ∨ ∃ addr data, i = .frameWrReq addr data) →
    decodeRequests frames.length (frames.flatMap fun i => (encode i).frameBytes) = .ok frames

/-- R98, R99: every accessor assembles to one legal command word, and that word is read back as the command of its row of
R99: the address by `REG_ADDR`, the tag and the divisor, whatever the addresses and power tags of the configuration.
R170: the word of a total power and that of the same power of a phase have the same tag and the divisors 250 and 1000, so
a raw reading of 250 is 1.0 for the total and 0.25 for the phase. -/
def Obligations.AccessorsExpandToLegalCommands : Prop :=
  (∀ p : Pseudo, ∃ w, commandWordOf (expandPseudo p) = some w ∧ assemble (.pseudo p) = some (.issue w) ∧
    legalWord w = true ∧
    decode (.command w) = .ok (match p with
      | .readreg a => .rdreg a
      | .writereg a d => .wrreg a d
      | .getv ph => .rddec (Config.regAddr (.voltage ph)) .usc .d100
      | .geti ph => .rddec (Config.regAddr (.current ph)) .usc .d1000
      | .getp ph => .rddec (Config.regAddr (.phasePower .active ph)) (Config.powerTag .active) .d1000
      | .getq ph => .rddec (Config.regAddr (.phasePower .reactive ph)) (Config.powerTag .reactive) .d1000
      | .gets ph => .rddec (Config.regAddr (.phasePower .apparent ph)) (Config.powerTag .apparent) .d1000
      | .getpt => .rddec (Config.regAddr (.totalPower .active)) (Config.powerTag .active) .d250
      | .getqt => .rddec (Config.regAddr (.totalPower .reactive)) (Config.powerTag .reactive) .d250
      | .getst => .rddec (Config.regAddr (.totalPower .apparent)) (Config.powerTag .apparent) .d250
      | .getfreq => .rddec (Config.regAddr .frequency) .usc .d100
      | .getpf q => .rddec (Config.regAddr (.powerFactor q)) .sms .d1000
      | .getang q => .rddec (Config.regAddr (.phaseAngle q)) .usc .d10
      | .gettemp => .rddec (Config.regAddr .temperature) .raw .d1
      | .gete q => .rddec (Config.regAddr (.energy q)) .usc .denergy
      | .caliberr => .calerr)) ∧
  (∀ (ph : Phase), ∀ pair ∈ [(Pseudo.getpt, Pseudo.getp ph), (.getqt, .getq ph), (.getst, .gets ph)],
    ∃ wTotal wPhase aTotal aPhase tag,
      commandWordOf (expandPseudo pair.1) = some wTotal ∧ commandWordOf (expandPseudo pair.2) = some wPhase ∧
      decode (.command wTotal) = .ok (.rddec aTotal tag .d250) ∧
      decode (.command wPhase) = .ok (.rddec aPhase tag .d1000) ∧
      (∀ raw : RegVal, decodeValue raw tag .d250 = fdiv (f64OfInt (numerator raw tag)) 250 ∧
        decodeValue raw tag .d1000 = fdiv (f64OfInt (numerator raw tag)) 1000) ∧
      decodeValue 250 tag .d250 = 0x3FF0000000000000 ∧ decodeValue 250 tag .d1000 = 0x3FD0000000000000)

/-! ### The step -/

/-- R130, R131, R133, R138: a Sequencer step is `exec` of the instruction that stands where the Sequencer's state fetches it:
the latched command in `IDLE`, the request frame in `TX`, the response in the step of its last byte. -/
def Obligations.StepRunsTheDecodedInstruction : Prop :=
  ∀ (s : State) (rest : List Event) (i : Instr), s.pending = .sequencer :: rest →
    let s' : State := { s with pending := rest }
    (s.seq.st = .idle → s.bank.busy = true → decode (.command s.seq.cmd) = .ok i → step s = exec i s') ∧
    (s.seq.st = .tx → decode (.request (s.seq.tx.toList.take s.seq.txLen.toNat)) = .ok i → step s = exec i s') ∧
    (∀ b held, s.seq.st = .rx → s.link.rxHeld = b :: held → s.seq.rxCnt ≠ 3 → s.seq.rxCnt + 1 = s.seq.rxNeed →
      decode (match s.seq.op with
        | .read => .readResponse (s.seq.rx.setIfInBounds s.seq.rxCnt.toNat b).toList
        | .write => .writeAck [(s.seq.rx.setIfInBounds s.seq.rxCnt.toNat b)[0]]) = .ok i →
      step s = exec i (rxTake b held s'))

/-- R4, R234 (the model's choice, notes/assumptions/2.md): a step with nothing scheduled is the event of the free
value. -/
def Obligations.UnscheduledStepIsTheFreeEvent : Prop :=
  ∀ s : State, s.pending = [] → step s = act (Config.environment s.tick) { s with tick := s.tick + 1 }

/-! ### The Frame Codec -/

/-- R110 to R113: checksums are sums modulo 256 of the covered bytes; the address byte holds the flag in bit 7 and the
address in bits 6:0. -/
def Obligations.ChecksumsAreByteSumsModulo256 : Prop :=
  (∀ (addr : RegAddr) (kind : TxnKind),
    (addressByte addr kind).toNat = addr.toNat + (if kind = .read then 128 else 0) ∧
    (addressByte addr kind).getLsbD 7 = decide (kind = .read) ∧ (addressByte addr kind).setWidth 7 = addr) ∧
  (∀ (abyte : Byte) (data : RegVal),
    (writeChecksum abyte data).toNat = (data.toNat / 256 + data.toNat % 256 + abyte.toNat) % 256) ∧
  (∀ hi lo : Byte, (readChecksum hi lo).toNat = (hi.toNat + lo.toNat) % 256)

/-- R116, R121, R122: a conforming response decodes to the register's value, and the echo of a request's checksum is
accepted. -/
def Obligations.ConformingAnswersRoundTrip : Prop :=
  (∀ v : RegVal, ∃ hi lo chk, encodeResponse v = [hi, lo, chk] ∧ decodeRead hi lo chk = some v) ∧
  (∀ (addr : RegAddr) (data : RegVal),
    checkAck (writeChecksum (addressByte addr .write) data) (writeChecksum (addressByte addr .write) data) = true)

/-- R119, R120: swapping the two data bytes, or adding to one what is taken from the other, is not detected; a change of
exactly one byte, covered or checksum, is. In general a changed read response is detected if and only if the changes of its
covered bytes do not sum, modulo 256, to the change of the checksum byte, and a changed write request has another checksum
if and only if the changes of its covered bytes do not sum to 0. -/
def Obligations.ChecksumDetectsAChangeExactlyWhenTheSumChanges : Prop :=
  ∀ hi lo : Byte,
    decodeRead lo hi (hi + lo) = some (wordOfBytes lo hi) ∧
    (∀ d : Byte, decodeRead (hi + d) (lo - d) (hi + lo) = some (wordOfBytes (hi + d) (lo - d))) ∧
    (∀ b : Byte, b ≠ hi → decodeRead b lo (hi + lo) = none) ∧
    (∀ b : Byte, b ≠ lo → decodeRead hi b (hi + lo) = none) ∧
    (∀ b : Byte, b ≠ hi + lo → decodeRead hi lo b = none) ∧
    (∀ (a b : Byte), writeChecksum a (wordOfBytes lo hi) = writeChecksum a (wordOfBytes hi lo) ∧
      (b ≠ a → writeChecksum b (wordOfBytes hi lo) ≠ writeChecksum a (wordOfBytes hi lo)) ∧
      (b ≠ hi → writeChecksum a (wordOfBytes b lo) ≠ writeChecksum a (wordOfBytes hi lo)) ∧
      (b ≠ lo → writeChecksum a (wordOfBytes hi b) ≠ writeChecksum a (wordOfBytes hi lo))) ∧
    (∀ hi' lo' chk' : Byte,
      decodeRead hi' lo' chk' = none ↔ (hi' - hi) + (lo' - lo) ≠ chk' - (hi + lo)) ∧
    (∀ a a' hi' lo' : Byte,
      writeChecksum a' (wordOfBytes hi' lo') ≠ writeChecksum a (wordOfBytes hi lo) ↔
        (a' - a) + (hi' - hi) + (lo' - lo) ≠ 0)

/-! ### The wire frames, executed -/

/-- R90, R114, R133, R134: a read request sends 0xFE and then the address byte with bit 7 set, one byte a step; the second
one ends the frame and begins the settle delay; nothing else changes. -/
def Obligations.ReadRequestSendsItsTwoBytes : Prop :=
  ∀ (s : State) (addr : RegAddr), 0 < s.link.txRoom →
    (s.seq.txIdx = 0 → exec (.frameRdReq addr) s = .next { s with
      link := { s.link with txRoom := s.link.txRoom - 1, txStream := s.link.txStream ++ [0xFE] }
      seq := { s.seq with txIdx := 1 } }) ∧
    (s.seq.txIdx = 1 → exec (.frameRdReq addr) s = .next { s with
      link := { s.link with txRoom := s.link.txRoom - 1, txStream := s.link.txStream ++ [0x80#8 ||| addr.setWidth 8] }
      seq := { s.seq with txIdx := 2, st := .settle, dly := Config.settleDelay } })

/-- R90, R115, R133, R134: a write request sends 0xFE, the address, the high and the low data byte and the checksum, one byte
a step; the fifth one ends the frame and begins the settle delay; nothing else changes. -/
def Obligations.WriteRequestSendsItsFiveBytes : Prop :=
  ∀ (s : State) (addr : RegAddr) (data : RegVal) (k : Fin 5), 0 < s.link.txRoom → s.seq.txIdx.toNat = k.val →
    exec (.frameWrReq addr data) s = .next { s with
      link := { s.link with
        txRoom := s.link.txRoom - 1
        txStream := s.link.txStream ++ [[0xFE, addr.setWidth 8, BitVec.ofNat 8 (data.toNat / 256),
          BitVec.ofNat 8 data.toNat,
          BitVec.ofNat 8 (data.toNat / 256 + data.toNat % 256 + addr.toNat)][k.val]] }
      seq := if k = 4 then { s.seq with txIdx := 5, st := .settle, dly := Config.settleDelay }
        else { s.seq with txIdx := BitVec.ofNat 3 (k.val + 1) } }

/-- R116, R138, R140: a read response with a good checksum completes the reading command in flight with its value; with a bad
one it records the failure sentinel, emits one record and enters the penalty; nothing else changes. -/
def Obligations.ReadResponseCompletesOrPenalizes : Prop :=
  ∀ (s : State) (hi lo chk : Byte) (addr : RegAddr),
    (chk = hi + lo → s.seq.cmd = commandWord 0x1 0 0 addr 0 →
      exec (.frameRdResp hi lo chk) s = .next { s with
        seq := { s.seq with st := .idle, txnOk := true, txnRaw := hi ++ lo }
        bank := { s.bank with raw := hi ++ lo, err := .none, busy := false, done := true } }) ∧
    (chk ≠ hi + lo →
      exec (.frameRdResp hi lo chk) s = .next { s with
        seq := { s.seq with st := .penalty, dly := Config.failDelay, txnOk := false, txnRaw := 0xFFFF }
        log := s.log ++ [⟨.read, s.seq.abyte, hi + lo, chk⟩] })

/-- R117, R138, R140: an echo equal to the stored checksum completes `WRREG` with no error; another one emits one record and
enters the penalty; nothing else changes. -/
def Obligations.WriteAckCompletesOrPenalizes : Prop :=
  ∀ (s : State) (echo : Byte) (addr : RegAddr) (data : RegVal),
    (echo = s.seq.chk → s.seq.cmd = commandWord 0x2 0 0 addr data →
      exec (.frameWrAck echo) s = .next { s with
        seq := { s.seq with st := .idle, txnOk := true }
        bank := { s.bank with err := .none, busy := false, done := true } }) ∧
    (echo ≠ s.seq.chk →
      exec (.frameWrAck echo) s = .next { s with
        seq := { s.seq with st := .penalty, dly := Config.failDelay, txnOk := false }
        log := s.log ++ [⟨.write, s.seq.abyte, s.seq.chk, echo⟩] })

/-! ### The commands, from dispatch to completion -/

/-- R131 to R141: `RDREG`, dispatched, sends two bytes, takes three, and with a good checksum completes with `RAW` the value
read and no error; no other result changes. -/
def Obligations.RdregReturnsTheRegisterRead : Prop :=
  ∀ (s : State) (addr : RegAddr) (hi lo : Byte) (more : List Byte) (rest : List Event),
    s.seq.cmd = commandWord 0x1 0 0 addr 0 → 2 ≤ s.link.txRoom → s.link.rxHeld = hi :: lo :: (hi + lo) :: more →
    Scheduled 6 rest s →
    ∃ t u, exec (.rdreg addr) s = .next t ∧ RunsTo 6 t u ∧
      AfterCommand s u [0xFE, 0x80#8 ||| addr.setWidth 8] more [] rest ∧
      u.bank = { s.bank with busy := false, done := true, err := .none, raw := hi ++ lo }

/-- R138 to R142: `RDREG` with a bad checksum takes the penalty and completes with `RAW` = 0xFFFF and `CHECKSUM`, with one
record; the frame is not sent again. -/
def Obligations.RdregReportsAChecksumMismatch : Prop :=
  ∀ (s : State) (addr : RegAddr) (hi lo chk : Byte) (more : List Byte) (rest : List Event),
    s.seq.cmd = commandWord 0x1 0 0 addr 0 → 2 ≤ s.link.txRoom → s.link.rxHeld = hi :: lo :: chk :: more →
    chk ≠ hi + lo → Scheduled 7 rest s →
    ∃ t u, exec (.rdreg addr) s = .next t ∧ RunsTo 7 t u ∧
      AfterCommand s u [0xFE, 0x80#8 ||| addr.setWidth 8] more
        [⟨.read, 0x80#8 ||| addr.setWidth 8, hi + lo, chk⟩] rest ∧
      u.bank = { s.bank with busy := false, done := true, err := .checksum, raw := 0xFFFF }

/-- R131 to R140, R145: `WRREG`, dispatched, sends five bytes and takes one; the echo of the checksum sent completes it with
no error, another one with a record, the penalty and `CHECKSUM`; `RAW` and the value do not change. -/
def Obligations.WrregSendsTheValueAndChecksTheEcho : Prop :=
  ∀ (s : State) (addr : RegAddr) (data : RegVal) (echo : Byte) (more : List Byte) (rest : List Event),
    let sum : Byte := hiByte data + loByte data + addr.setWidth 8
    s.seq.cmd = commandWord 0x2 0 0 addr data → 5 ≤ s.link.txRoom → s.link.rxHeld = echo :: more →
    Scheduled (if echo = sum then 7 else 8) rest s →
    ∃ t u, exec (.wrreg addr data) s = .next t ∧ RunsTo (if echo = sum then 7 else 8) t u ∧
      AfterCommand s u [0xFE, addr.setWidth 8, hiByte data, loByte data, sum] more
        (if echo = sum then [] else [⟨.write, addr.setWidth 8, sum, echo⟩]) rest ∧
      u.bank = { s.bank with
        busy := false, done := true, err := if echo = sum then .none else .checksum }

/-- R131 to R140, R167: `RDDEC`, dispatched, reads as `RDREG` does and completes with `RAW` and the decoded value; after a bad
checksum both are those of the sentinel 0xFFFF. -/
def Obligations.RddecReadsAndDecodes : Prop :=
  ∀ (s : State) (addr : RegAddr) (tag : Tag) (div : Div) (hi lo chk : Byte) (more : List Byte) (rest : List Event),
    let raw : RegVal := if chk = hi + lo then hi ++ lo else 0xFFFF
    s.seq.cmd = commandWord 0x3 (codeOfDiv div) (codeOfTag tag) addr 0 → 2 ≤ s.link.txRoom →
    s.link.rxHeld = hi :: lo :: chk :: more → Scheduled (if chk = hi + lo then 6 else 7) rest s →
    ∃ t u, exec (.rddec addr tag div) s = .next t ∧ RunsTo (if chk = hi + lo then 6 else 7) t u ∧
      AfterCommand s u [0xFE, 0x80#8 ||| addr.setWidth 8] more
        (if chk = hi + lo then [] else [⟨.read, 0x80#8 ||| addr.setWidth 8, hi + lo, chk⟩]) rest ∧
      u.bank = { s.bank with
        busy := false, done := true, err := (if chk = hi + lo then .none else .checksum), raw := raw
        val := decodeValue raw tag div }

/-- R163, R164, R166: `DECODE` completes in its dispatch with no error, `RAW` the operand, and the value its numerator gives
by the tag and the divisions of the code; no byte moves and nothing else changes. -/
def Obligations.DecodeCompletesAtDispatch : Prop :=
  ∀ (s : State) (data : RegVal) (tag : Tag) (div : Div),
    let x : Double := f64OfInt (if tag = .sms ∧ data.getLsbD 15 = true then 32768 - (data.toNat : Int) else data.toNat)
    exec (.decode data tag div) s = .next { s with
      seq := { s.seq with st := .idle }
      bank := { s.bank with
        busy := false, done := true, err := .none, raw := data
        val := if tag = .raw then x else match div with
          | .d1 => fdiv x 1
          | .d10 => fdiv x 10
          | .d100 => fdiv x 100
          | .d250 => fdiv x 250
          | .d1000 => fdiv x 1000
          | .denergy => fdiv (fdiv x 100) 3200 } }

/-- R131 to R140, R186, R188: `CALERR`, dispatched, reads the system-status register and completes with the four mask tests
and their or, on a failed read those of 0xFFFF, where a test is set exactly if its mask is not zero; the value does not
change. -/
def Obligations.CalerrTestsTheFourMasks : Prop :=
  ∀ (s : State) (hi lo chk : Byte) (more : List Byte) (rest : List Event),
    let raw : RegVal := if chk = hi + lo then hi ++ lo else 0xFFFF
    let abyte : Byte := 0x80#8 ||| Config.sysStatusAddr.setWidth 8
    s.seq.cmd = 0x60000000 → 2 ≤ s.link.txRoom →
    s.link.rxHeld = hi :: lo :: chk :: more → Scheduled (if chk = hi + lo then 6 else 7) rest s →
    ∃ t u, exec .calerr s = .next t ∧ RunsTo (if chk = hi + lo then 6 else 7) t u ∧
      AfterCommand s u [0xFE, abyte] more (if chk = hi + lo then [] else [⟨.read, abyte, hi + lo, chk⟩]) rest ∧
      u.bank.busy = false ∧ u.bank.done = true ∧ u.bank.val = s.bank.val ∧ u.bank.raw = raw ∧
      u.bank.err = (if chk = hi + lo then .none else .checksum) ∧
      u.bank.calflags.getLsbD 0 = (raw &&& Config.calMask0 != 0) ∧
      u.bank.calflags.getLsbD 1 = (raw &&& Config.calMask1 != 0) ∧
      u.bank.calflags.getLsbD 2 = (raw &&& Config.calMask2 != 0) ∧
      u.bank.calflags.getLsbD 3 = (raw &&& Config.calMask3 != 0) ∧
      u.bank.calerr = (u.bank.calflags != 0) ∧
      (chk ≠ hi + lo →
        u.bank.calflags.getLsbD 0 = (Config.calMask0 != 0) ∧ u.bank.calflags.getLsbD 1 = (Config.calMask1 != 0) ∧
        u.bank.calflags.getLsbD 2 = (Config.calMask2 != 0) ∧ u.bank.calflags.getLsbD 3 = (Config.calMask3 != 0))

/-- R181 to R185: `BEGIN` sends the write request of every entry of the table, once and in order, whatever the echoes are;
each bad echo gives one record and the penalty; it completes with no error, and no other result changes. An empty table
completes at dispatch. -/
def Obligations.BeginPlaysTheWholeTableWhateverTheEchoes : Prop :=
  ∀ (s : State) (echoes more : List Byte) (rest : List Event),
    s.seq.cmd = 0x50000000 → echoes.length = initTable.length → 5 * initTable.length ≤ s.link.txRoom →
    s.link.rxHeld = echoes ++ more → Scheduled (beginSteps initTable echoes) rest s →
    ∃ t u, exec .beginInit s = .next t ∧ RunsTo (beginSteps initTable echoes) t u ∧
      AfterCommand s u
        (initTable.flatMap fun e => [0xFE, e.addr.setWidth 8, hiByte e.data, loByte e.data,
          hiByte e.data + loByte e.data + e.addr.setWidth 8])
        more (beginRecords initTable echoes) rest ∧
      u.bank = { s.bank with busy := false, done := true, err := .none }

/-- R142, R167, R169: a valid reading of 0xFFFF and a failed read leave the bank the same but for `ERR`. -/
def Obligations.FailureSentinelIsToldApartOnlyByErr : Prop :=
  ∀ (s s' u u' : State) (addr : RegAddr) (tag : Tag) (div : Div) (hi lo chk : Byte) (more more' : List Byte)
    (rest rest' : List Event),
    (s.seq.cmd = commandWord 0x1 0 0 addr 0 ∨ s.seq.cmd = commandWord 0x3 (codeOfDiv div) (codeOfTag tag) addr 0) →
    s'.seq.cmd = s.seq.cmd → s'.bank = s.bank →
    s.seq.st = .idle → s'.seq.st = .idle → s.bank.busy = true →
    (s.seq.cmd = commandWord 0x3 (codeOfDiv div) (codeOfTag tag) addr 0 → pairLegal tag div = true) →
    2 ≤ s.link.txRoom → 2 ≤ s'.link.txRoom →
    s.link.rxHeld = 0xFF :: 0xFF :: 0xFE :: more → s'.link.rxHeld = hi :: lo :: chk :: more' → chk ≠ hi + lo →
    Scheduled 7 rest s → Scheduled 8 rest' s' → RunsTo 7 s u → RunsTo 8 s' u' →
    u.bank.err = .none ∧ u'.bank.err = .checksum ∧ u'.bank = { u.bank with err := .checksum }

/-! ### The Telemetry Decoder -/

/-- R161, R168: the numerator of a scaled or raw value is the unsigned value; under `SMS` a value with bit 15 set gives 32768
minus it, which agrees with a two's-complement reading at 0xC000 alone. -/
def Obligations.SignMagnitudeIsNotTwosComplement : Prop :=
  ∀ raw : RegVal,
    numerator raw .raw = raw.toNat ∧ numerator raw .usc = raw.toNat ∧
    (raw.getLsbD 15 = false → numerator raw .sms = raw.toNat) ∧
    (raw.getLsbD 15 = true → numerator raw .sms = 32768 - (raw.toNat : Int) ∧ raw.toInt = (raw.toNat : Int) - 65536 ∧
      (numerator raw .sms = raw.toInt ↔ raw = 0xC000)) ∧
    numerator 0xFFFF .sms = -32767 ∧ numerator 0x8001 .sms = -1 ∧ numerator 0x8000 .sms = 0

/-- R10, R163: `f64` of an integer of at most 65535 in magnitude is that integer, exactly. -/
def Obligations.IntegersConvertExactly : Prop :=
  ∀ i : Int, i.natAbs ≤ 65535 →
    f64Finite (f64OfInt i) = true ∧ f64Value (f64OfInt i) = (i : ℚ) ∧ f64Sign (f64OfInt i) = decide (i < 0)

/-- R162: division is correctly rounded: no finite binary64 is nearer to the exact quotient than the result, and where another
value is as near the result is the one whose last significand bit is even. The result has the sign of `x`; for a quotient
that rounds to zero R162 does not say so, and it is the model's choice (PRESUMED; notes/assumptions/16.md). -/
def Obligations.DivisionIsCorrectlyRounded : Prop :=
  ∀ (x : Double) (d : Nat), f64Finite x = true → 0 < d →
    f64Finite (fdiv x d) = true ∧ f64Sign (fdiv x d) = f64Sign x ∧
    ∀ z : Double, f64Finite z = true →
      |f64Value (fdiv x d) - f64Value x / d| ≤ |f64Value z - f64Value x / d| ∧
      (|f64Value (fdiv x d) - f64Value x / d| = |f64Value z - f64Value x / d| →
        f64Value z ≠ f64Value (fdiv x d) → (fdiv x d).getLsbD 0 = false)

/-- R165 (a), (b), (c): a decoded value is never NaN, infinite, subnormal or -0.0; it is +0.0 exactly for a numerator of zero,
and else has the numerator's sign. -/
def Obligations.DecodedValuesAreNormalOrPlusZero : Prop :=
  ∀ (raw : RegVal) (tag : Tag) (div : Div),
    f64Finite (decodeValue raw tag div) = true ∧
    (numerator raw tag = 0 → decodeValue raw tag div = 0) ∧
    (numerator raw tag ≠ 0 → f64Exponent (decodeValue raw tag div) ≠ 0 ∧
      f64Sign (decodeValue raw tag div) = decide (numerator raw tag < 0))

/-! ### The invariant and what it gives -/

/-- The invariant holds right after reset. -/
def Obligations.InvariantHoldsAtReset : Prop := Inv State.reset

/-- R20, R21, R26, R130 to R140, R182, R186: every step, of any agent, keeps the invariant: `BUSY` and `DONE` are never both
1, `CALERR` is the or of `CALFLAGS`, and outside `IDLE` the Sequencer holds the frame, the counts and the checksum of the
transaction that its legal, busy command performs. -/
def Obligations.EveryStepKeepsTheInvariant : Prop :=
  ∀ s t : State, Inv s → step s = .next t → Inv t

/-- R203, R204, R234: where the invariant holds, a step faults only because the Host breaks a duty, and no step is refused:
the Sequencer, the Link and reset never stop a run. -/
def Obligations.OnlyTheHostsBreachesFault : Prop :=
  ∀ s : State, Inv s →
    (∀ r, step s ≠ .refused r) ∧ step s ≠ .fault .noTransition ∧
    (∀ f, step s = .fault f →
      (∃ a, (nextEvent s).1 = .hostAccess a ∧ hostKeepsDuties a s = false) ∨
      ((nextEvent s).1 = .hostProgram ∧ s.bank.busy = true ∧ f = .busyViolation))

/-- R33: which results a completing command writes, by the command; a field it does not write keeps its value. -/
def Obligations.EachCommandWritesOnlyItsResults : Prop :=
  ∀ s t : State, Inv s → (nextEvent s).1 = .sequencer → s.bank.busy = true → step s = .next t →
    t.bank.busy = false →
    t.bank.done = true ∧
    match decode (.command s.seq.cmd) with
    | .ok (.rdreg _) => t.bank.err ≠ .illegal ∧ t.bank = { s.bank with
        busy := false, done := true, err := t.bank.err, raw := t.seq.txnRaw }
    | .ok (.wrreg _ _) => t.bank.err ≠ .illegal ∧ t.bank = { s.bank with busy := false, done := true, err := t.bank.err }
    | .ok (.rddec _ tag div) => t.bank.err ≠ .illegal ∧ t.bank = { s.bank with
        busy := false, done := true, err := t.bank.err, raw := t.seq.txnRaw, val := decodeValue t.seq.txnRaw tag div }
    | .ok (.decode data tag div) => t.bank = { s.bank with
        busy := false, done := true, err := .none, raw := data, val := decodeValue data tag div }
    | .ok .beginInit => t.bank = { s.bank with busy := false, done := true, err := .none }
    | .ok .calerr => t.bank.err ≠ .illegal ∧ t.bank = { s.bank with
        busy := false, done := true, err := t.bank.err, raw := t.seq.txnRaw
        calflags := calFlags t.seq.txnRaw, calerr := calErr t.seq.txnRaw }
    | .ok _ => False
    | .error _ => t.bank = { s.bank with busy := false, done := true, err := .illegal }

/-- R134: the settle delay is entered only from `TX`, in the step that hands over the last byte of the request; and no byte
is received in `TX` or `SETTLE`: what the device sends meanwhile stays in the Link. -/
def Obligations.SettleBeginsWhenTheRequestIsFullySent : Prop :=
  ∀ s t : State, Inv s → step s = .next t →
    (s.seq.st ≠ .settle → t.seq.st = .settle →
      s.seq.st = .tx ∧ (nextEvent s).1 = .sequencer ∧ t.seq.txIdx = t.seq.txLen ∧ t.seq.dly = Config.settleDelay ∧
      ∃ b, s.seq.tx.toList[s.seq.txLen.toNat - 1]? = some b ∧ t.link.txStream = s.link.txStream ++ [b]) ∧
    (s.seq.st = .tx ∨ s.seq.st = .settle → t.link.rxHeld = s.link.rxHeld ∨
      ∃ b, (nextEvent s).1 = .linkDelivers b ∧ t.link.rxHeld = s.link.rxHeld ++ [b])

/-- R139, R147: the penalty ends in a completion with `CHECKSUM`, or, in `BEGIN`, goes on to the next entry or completes; it
never sends the frame again, and it touches neither the Link nor the log. -/
def Obligations.PenaltyEndsWithoutRetry : Prop :=
  ∀ s : State, Inv s → s.seq.st = .penalty →
    ∃ t, seqStep s = .next t ∧ t.link = s.link ∧ t.log = s.log ∧
      ((t.seq.st = .idle ∧ t.bank.busy = false ∧ t.bank.done = true ∧
          (s.seq.cmd ≠ 0x50000000 → t.bank.err = .checksum) ∧ (s.seq.cmd = 0x50000000 → t.bank.err = .none)) ∨
       (s.seq.cmd = 0x50000000 ∧ t.seq.st = .tx ∧ t.seq.initIdx = s.seq.initIdx + 1 ∧ t.bank = s.bank ∧
          ∃ e, initTable[t.seq.initIdx]? = some e ∧ t.seq.tx.toList = encodeWrite e.addr e.data))

/-- R150, R203: a command whose Link accepts and delivers completes within a bounded number of Sequencer steps, whatever the
bytes are: only the Link can keep it from completing. -/
def Obligations.BusyCommandCompletesWhenTheLinkServes : Prop :=
  ∀ (s : State) (rest : List Event), Inv s → s.bank.busy = true →
    let n := 8 * (initTable.length + 1) + 1
    Scheduled n rest s → n ≤ s.link.txRoom → n ≤ s.link.rxHeld.length →
    ∃ k u, k ≤ n ∧ RunsTo k s u ∧ u.seq.st = .idle ∧ u.bank.busy = false ∧ u.bank.done = true

/-! ### Whole-machine rules -/

/-- R34, R71: the bank changes only by an accept, by a completion (one Sequencer step that also clears `BUSY`, sets `DONE` and
returns to `IDLE`) or by reset; at any other step every word of it keeps its value. -/
def Obligations.BankChangesOnlyByAcceptCompletionOrReset : Prop :=
  ∀ s t : State, step s = .next t →
    t.bank = s.bank ∨
    (s.bank.busy = false ∧ t.bank = { s.bank with busy := true, done := false } ∧
      ((∃ w, (nextEvent s).1 = .hostAccess (.write 0x00 4 w)) ∨ (nextEvent s).1 = .hostProgram)) ∨
    ((nextEvent s).1 = .sequencer ∧ t.bank.busy = false ∧ t.bank.done = true ∧ t.seq.st = .idle) ∨
    ((nextEvent s).1 = .reset ∧ t.bank = BankRegs.reset)

/-- R71 (a), R72: while no command is in flight, results stand until the next accept or reset. -/
def Obligations.ResultsStandUntilTheNextAccept : Prop :=
  ∀ s t : State, Inv s → s.bank.busy = false → step s = .next t → t.bank.busy = false →
    (nextEvent s).1 ≠ .reset → t.bank = s.bank ∧ t.seq = s.seq ∧ t.log = s.log ∧ t.link.txStream = s.link.txStream

/-- R25, R71, R75: while a command is in flight only the Sequencer and reset change the Sequencer, the bank, the log or what
has been sent, and the Sequencer never changes the latched word. -/
def Obligations.CommandInFlightIsNotDisturbed : Prop :=
  ∀ s t : State, step s = .next t →
    ((nextEvent s).1 = .sequencer → t.seq.cmd = s.seq.cmd) ∧
    (s.bank.busy = true → (nextEvent s).1 ≠ .sequencer → (nextEvent s).1 ≠ .reset →
      t.seq = s.seq ∧ t.bank = s.bank ∧ t.log = s.log ∧ t.link.txStream = s.link.txStream)

/-- R66, R133: bytes are handed over only by the Sequencer in `TX`, one a step, each the byte of the frame buffer at the index,
and none already handed over is ever changed. -/
def Obligations.OnlyTheTransmitStateSends : Prop :=
  ∀ s t : State, step s = .next t →
    t.link.txStream = s.link.txStream ∨
    ∃ b, (nextEvent s).1 = .sequencer ∧ s.seq.st = .tx ∧ 0 < s.link.txRoom ∧
      s.seq.tx.toList[s.seq.txIdx.toNat]? = some b ∧ t.seq.txIdx = s.seq.txIdx + 1 ∧
      t.link.txStream = s.link.txStream ++ [b]

/-- R68, R134, R137: the bytes the Link holds are never flushed or skipped, by reset neither: they change only by a delivery
at their end, or by the Sequencer taking the oldest in `RX` into the response buffer. -/
def Obligations.ReceivedBytesAreNeverFlushed : Prop :=
  ∀ s t : State, step s = .next t →
    t.link.rxHeld = s.link.rxHeld ∨
    (∃ b, (nextEvent s).1 = .linkDelivers b ∧ t.link.rxHeld = s.link.rxHeld ++ [b]) ∨
    (∃ b, (nextEvent s).1 = .sequencer ∧ s.seq.st = .rx ∧ s.link.rxHeld = b :: t.link.rxHeld ∧
      t.seq.rx = s.seq.rx.setIfInBounds s.seq.rxCnt.toNat b)

/-- R39, R138, R208: a record is emitted exactly in the step that finds a mismatch, with the fields of R208, and never taken
back; that step enters the penalty. In the first clause, no step of any agent appends anything else, and none enters the
penalty without a record; in the second, the Sequencer's step that takes the last response byte in `RX` and finds that the
checksum differs always appends its record and enters the penalty. -/
def Obligations.LogGrowsExactlyByMismatches : Prop :=
  (∀ s t : State, step s = .next t →
    (t.log = s.log ∧ ¬(s.seq.st ≠ .penalty ∧ t.seq.st = .penalty)) ∨
    (t.seq.st = .penalty ∧ s.seq.st = .rx ∧ (nextEvent s).1 = .sequencer ∧ t.seq.dly = Config.failDelay ∧
      t.seq.txnOk = false ∧
      (s.seq.op = .read → t.seq.rx[2] ≠ t.seq.rx[0] + t.seq.rx[1] ∧
        t.log = s.log ++ [⟨.read, s.seq.abyte, t.seq.rx[0] + t.seq.rx[1], t.seq.rx[2]⟩]) ∧
      (s.seq.op = .write → t.seq.rx[0] ≠ s.seq.chk ∧
        t.log = s.log ++ [⟨.write, s.seq.abyte, s.seq.chk, t.seq.rx[0]⟩]))) ∧
  (∀ (s : State) (b : Byte) (held : List Byte), (nextEvent s).1 = .sequencer → s.seq.st = .rx →
    s.link.rxHeld = b :: held → s.seq.rxCnt ≠ 3 → s.seq.rxCnt + 1 = s.seq.rxNeed →
    let rx := s.seq.rx.setIfInBounds s.seq.rxCnt.toNat b
    let u := (nextEvent s).2
    (s.seq.op = .read → rx[2] ≠ rx[0] + rx[1] →
      step s = .next { u with
        link := { u.link with rxHeld := held }
        seq := { s.seq with
          rx := rx, rxCnt := s.seq.rxNeed, st := .penalty, dly := Config.failDelay, txnOk := false, txnRaw := 0xFFFF }
        log := s.log ++ [⟨.read, s.seq.abyte, rx[0] + rx[1], rx[2]⟩] }) ∧
    (s.seq.op = .write → rx[0] ≠ s.seq.chk →
      step s = .next { u with
        link := { u.link with rxHeld := held }
        seq := { s.seq with
          rx := rx, rxCnt := s.seq.rxNeed, st := .penalty, dly := Config.failDelay, txnOk := false }
        log := s.log ++ [⟨.write, s.seq.abyte, s.seq.chk, rx[0]⟩] }))

/-- Without the Link's acceptance in `TX`, without a byte in `RX`, and in `IDLE` with `BUSY` = 0, a Sequencer step leaves
everything as it is, and this is no fault. R130, R149 and R150 say that the Sequencer has no step there and waits without a
timeout; that its turn is then a step answering the same state, and no fault, is the model's choice:
notes/assumptions/12.md (DEDUCED) for the waits in `TX` and `RX`, notes/assumptions/2.md (DESIGN CHOICE) for a Sequencer
event with no transition enabled. -/
def Obligations.SequencerWaitsForTheLink : Prop :=
  ∀ s : State,
    (s.seq.st = .tx ∧ s.link.txRoom = 0) ∨ (s.seq.st = .rx ∧ s.link.rxHeld = []) ∨
      (s.seq.st = .idle ∧ s.bank.busy = false) →
    seqStep s = .next s
end

