-- ==== Sys2Proof/Laws/Decode.lean ====
section
/-! SUPPORT. The fields of a command word read back what it was built from, the codes read back the tags and divisors, and
the bytes of a register value give it back. -/

namespace Sys2Proof.Machine

section Fields

variable (opc : BitVec 4) (div : BitVec 3) (tag : BitVec 2) (addr : RegAddr) (data : RegVal)

/-- The bits of a command word, field by field (30_encoding.md R80). -/
theorem commandWord_getLsbD (i : Nat) :
    (commandWord opc div tag addr data).getLsbD i =
      if i < 16 then data.getLsbD i
      else if i < 23 then addr.getLsbD (i - 16)
      else if i < 25 then tag.getLsbD (i - 23)
      else if i < 28 then div.getLsbD (i - 25)
      else opc.getLsbD (i - 28) := by
  change BitVec.getLsbD (w := 4 + 3 + 2 + 7 + 16) (opc ++ div ++ tag ++ addr ++ data) i = _
  simp only [BitVec.getLsbD_append]
  repeat' split
  all_goals first
    | rfl
    | omega

@[simp] theorem opcOf_commandWord : opcOf (commandWord opc div tag addr data) = opc := by
  apply BitVec.eq_of_getLsbD_eq
  intro i hi
  simp [opcOf, commandWord_getLsbD, hi, show ¬ 28 + i < 16 by omega, show ¬ 28 + i < 23 by omega,
    show ¬ 28 + i < 25 by omega]

@[simp] theorem divCodeOf_commandWord : divCodeOf (commandWord opc div tag addr data) = div := by
  apply BitVec.eq_of_getLsbD_eq
  intro i hi
  simp [divCodeOf, commandWord_getLsbD, hi, show ¬ 25 + i < 16 by omega, show ¬ 25 + i < 23 by omega,
    show 25 + i < 28 by omega]

@[simp] theorem tagCodeOf_commandWord : tagCodeOf (commandWord opc div tag addr data) = tag := by
  apply BitVec.eq_of_getLsbD_eq
  intro i hi
  simp [tagCodeOf, commandWord_getLsbD, hi, show ¬ 23 + i < 16 by omega, show 23 + i < 25 by omega]

@[simp] theorem addrOf_commandWord : addrOf (commandWord opc div tag addr data) = addr := by
  apply BitVec.eq_of_getLsbD_eq
  intro i hi
  simp [addrOf, commandWord_getLsbD, hi, show 16 + i < 23 by omega]

@[simp] theorem dataOf_commandWord : dataOf (commandWord opc div tag addr data) = data := by
  apply BitVec.eq_of_getLsbD_eq
  intro i hi
  simp [dataOf, commandWord_getLsbD, hi]

end Fields

/-- A word is the one built from its own fields. -/
theorem commandWord_fields (w : Word) :
    commandWord (opcOf w) (divCodeOf w) (tagCodeOf w) (addrOf w) (dataOf w) = w := by
  apply BitVec.eq_of_getLsbD_eq
  intro i hi
  simp only [commandWord_getLsbD, opcOf, divCodeOf, tagCodeOf, addrOf, dataOf, BitVec.getLsbD_extractLsb']
  split
  · simp [*]
  split
  · simp [show i - 16 < 7 by omega, show 16 + (i - 16) = i by omega]
  split
  · simp [show i - 23 < 2 by omega, show 23 + (i - 23) = i by omega]
  split
  · simp [show i - 25 < 3 by omega, show 25 + (i - 25) = i by omega]
  · simp [show i - 28 < 4 by omega, show 28 + (i - 28) = i by omega]

@[simp] theorem tagOfCode_codeOfTag (t : Tag) : tagOfCode (codeOfTag t) = some t := by cases t <;> rfl

@[simp] theorem divOfCode_codeOfDiv (d : Div) : divOfCode (codeOfDiv d) = some d := by cases d <;> rfl

theorem codeOfTag_of_tagOfCode : ∀ {c : BitVec 2} {t : Tag}, tagOfCode c = some t → codeOfTag t = c := by
  intro c t h
  unfold tagOfCode at h
  split at h
  · cases h; symm; assumption
  split at h
  · cases h; symm; assumption
  split at h
  · cases h; symm; assumption
  · cases h

theorem codeOfDiv_of_divOfCode : ∀ {c : BitVec 3} {d : Div}, divOfCode c = some d → codeOfDiv d = c := by
  intro c d h
  unfold divOfCode at h
  repeat' split at h
  all_goals (cases h; try (symm; assumption))

/-- The bits of a register value built from two bytes. -/
theorem wordOfBytes_getLsbD (hi lo : Byte) (i : Nat) :
    (wordOfBytes hi lo).getLsbD i = if i < 8 then lo.getLsbD i else hi.getLsbD (i - 8) := by
  change BitVec.getLsbD (w := 8 + 8) (hi ++ lo) i = _
  rw [BitVec.getLsbD_append]

@[simp] theorem hiByte_wordOfBytes (hi lo : Byte) : hiByte (wordOfBytes hi lo) = hi := by
  apply BitVec.eq_of_getLsbD_eq
  intro i h
  simp [hiByte, wordOfBytes_getLsbD, h]

@[simp] theorem loByte_wordOfBytes (hi lo : Byte) : loByte (wordOfBytes hi lo) = lo := by
  apply BitVec.eq_of_getLsbD_eq
  intro i h
  simp [loByte, wordOfBytes_getLsbD, h]

@[simp] theorem wordOfBytes_bytes (v : RegVal) : wordOfBytes (hiByte v) (loByte v) = v := by
  apply BitVec.eq_of_getLsbD_eq
  intro i h
  simp only [wordOfBytes_getLsbD, hiByte, loByte, BitVec.getLsbD_extractLsb']
  split
  · simp [*]
  · simp [show i - 8 < 8 by omega, show 8 + (i - 8) = i by omega]

/-- A decoding command's tag and divisor are those of its codes, and a legal pair. -/
theorem decodeRule_cases {w : Word} {tag : Tag} {div : Div} (h : decodeRule w = .ok (tag, div)) :
    tagOfCode (tagCodeOf w) = some tag ∧ divOfCode (divCodeOf w) = some div ∧ pairLegal tag div = true := by
  unfold decodeRule at h
  split at h
  · cases h
  · cases h
  · rename_i t d ht hd
    split at h
    · rename_i hp
      cases h
      exact ⟨ht, hd, hp⟩
    · cases h

/-- What a command word can decode to, with the opcode that `finish` looks at and the codes that `RDDEC` decodes at its
finish; never a wire frame. -/
theorem decode_command_cases {w : Word} {i : Instr} (h : decode (.command w) = .ok i) :
    (∃ a, i = .rdreg a ∧ opcOf w = 0x1) ∨ (∃ a d, i = .wrreg a d ∧ opcOf w = 0x2) ∨
    (∃ a tag div, i = .rddec a tag div ∧ opcOf w = 0x3 ∧ tagOfCode (tagCodeOf w) = some tag ∧
      divOfCode (divCodeOf w) = some div) ∨
    (∃ d tag div, i = .decode d tag div ∧ opcOf w = 0x4) ∨
    (i = .beginInit ∧ opcOf w = 0x5) ∨ (i = .calerr ∧ opcOf w = 0x6) := by
  change decodeCommand w = .ok i at h
  unfold decodeCommand at h
  split at h
  · rename_i ho
    split at h
    · cases h; exact .inl ⟨_, rfl, ho⟩
    · cases h
  split at h
  · rename_i ho
    split at h
    · cases h; exact .inr (.inl ⟨_, _, rfl, ho⟩)
    · cases h
  split at h
  · rename_i ho
    split at h
    · split at h
      · rename_i tag div hr
        cases h
        have hc := decodeRule_cases hr
        exact .inr (.inr (.inl ⟨_, tag, div, rfl, ho, hc.1, hc.2.1⟩))
      · cases h
    · cases h
  split at h
  · rename_i ho
    split at h
    · split at h
      · rename_i tag div _
        cases h
        exact .inr (.inr (.inr (.inl ⟨_, tag, div, rfl, ho⟩)))
      · cases h
    · cases h
  split at h
  · rename_i ho
    split at h
    · cases h; exact .inr (.inr (.inr (.inr (.inl ⟨rfl, ho⟩))))
    · cases h
  split at h
  · rename_i ho
    split at h
    · cases h; exact .inr (.inr (.inr (.inr (.inr ⟨rfl, ho⟩))))
    · cases h
  · cases h

/-- What request bytes can decode to, and how many there are. -/
theorem decode_request_cases {bs : List Byte} {i : Instr} (h : decode (.request bs) = .ok i) :
    (∃ a, i = .frameRdReq a ∧ bs.length = 2) ∨ (∃ a d, i = .frameWrReq a d ∧ bs.length = 5) := by
  have h' : ∃ j rest, decodeRequest bs = .ok (j, rest) ∧ rest = [] ∧ j = i := by
    simp only [decode] at h
    split at h
    · rename_i j hj
      cases h
      exact ⟨_, [], hj, rfl, rfl⟩
    · cases h
    · cases h
  obtain ⟨j, rest, hd, rfl, rfl⟩ := h'
  unfold decodeRequest at hd
  split at hd
  · split at hd
    · split at hd
      · cases hd; exact .inl ⟨_, rfl, rfl⟩
      · split at hd
        · split at hd
          · cases hd; exact .inr ⟨_, _, rfl, rfl⟩
          · cases hd
        · cases hd
    · cases hd
  · cases hd

end Sys2Proof.Machine
end

