-- ==== Sys2Proof/Laws/State.lean ====
section
/-! SUPPORT. What each named update does to each part of the state: one lemma for a part it leaves alone, and one for each
register of a part it writes. All hold by unfolding, and with them no later proof unfolds a record update. -/

namespace Sys2Proof.Machine

/-! ### `setRaw v s` -/

@[simp] theorem setRaw_seq (v : RegVal) (s : State) : (setRaw v s).seq = s.seq := rfl
@[simp] theorem setRaw_busy (v : RegVal) (s : State) : (setRaw v s).bank.busy = s.bank.busy := rfl
@[simp] theorem setRaw_done (v : RegVal) (s : State) : (setRaw v s).bank.done = s.bank.done := rfl
@[simp] theorem setRaw_err (v : RegVal) (s : State) : (setRaw v s).bank.err = s.bank.err := rfl
@[simp] theorem setRaw_calerr (v : RegVal) (s : State) : (setRaw v s).bank.calerr = s.bank.calerr := rfl
@[simp] theorem setRaw_calflags (v : RegVal) (s : State) : (setRaw v s).bank.calflags = s.bank.calflags := rfl
@[simp] theorem setRaw_raw (v : RegVal) (s : State) : (setRaw v s).bank.raw = v := rfl
@[simp] theorem setRaw_val (v : RegVal) (s : State) : (setRaw v s).bank.val = s.bank.val := rfl
@[simp] theorem setRaw_link (v : RegVal) (s : State) : (setRaw v s).link = s.link := rfl
@[simp] theorem setRaw_host (v : RegVal) (s : State) : (setRaw v s).host = s.host := rfl
@[simp] theorem setRaw_log (v : RegVal) (s : State) : (setRaw v s).log = s.log := rfl
@[simp] theorem setRaw_pending (v : RegVal) (s : State) : (setRaw v s).pending = s.pending := rfl
@[simp] theorem setRaw_tick (v : RegVal) (s : State) : (setRaw v s).tick = s.tick := rfl

/-! ### `setVal v s` -/

@[simp] theorem setVal_seq (v : Double) (s : State) : (setVal v s).seq = s.seq := rfl
@[simp] theorem setVal_busy (v : Double) (s : State) : (setVal v s).bank.busy = s.bank.busy := rfl
@[simp] theorem setVal_done (v : Double) (s : State) : (setVal v s).bank.done = s.bank.done := rfl
@[simp] theorem setVal_err (v : Double) (s : State) : (setVal v s).bank.err = s.bank.err := rfl
@[simp] theorem setVal_calerr (v : Double) (s : State) : (setVal v s).bank.calerr = s.bank.calerr := rfl
@[simp] theorem setVal_calflags (v : Double) (s : State) : (setVal v s).bank.calflags = s.bank.calflags := rfl
@[simp] theorem setVal_raw (v : Double) (s : State) : (setVal v s).bank.raw = s.bank.raw := rfl
@[simp] theorem setVal_val (v : Double) (s : State) : (setVal v s).bank.val = v := rfl
@[simp] theorem setVal_link (v : Double) (s : State) : (setVal v s).link = s.link := rfl
@[simp] theorem setVal_host (v : Double) (s : State) : (setVal v s).host = s.host := rfl
@[simp] theorem setVal_log (v : Double) (s : State) : (setVal v s).log = s.log := rfl
@[simp] theorem setVal_pending (v : Double) (s : State) : (setVal v s).pending = s.pending := rfl
@[simp] theorem setVal_tick (v : Double) (s : State) : (setVal v s).tick = s.tick := rfl

/-! ### `setCal r s` -/

@[simp] theorem setCal_seq (r : RegVal) (s : State) : (setCal r s).seq = s.seq := rfl
@[simp] theorem setCal_busy (r : RegVal) (s : State) : (setCal r s).bank.busy = s.bank.busy := rfl
@[simp] theorem setCal_done (r : RegVal) (s : State) : (setCal r s).bank.done = s.bank.done := rfl
@[simp] theorem setCal_err (r : RegVal) (s : State) : (setCal r s).bank.err = s.bank.err := rfl
@[simp] theorem setCal_calerr (r : RegVal) (s : State) : (setCal r s).bank.calerr = calErr r := rfl
@[simp] theorem setCal_calflags (r : RegVal) (s : State) : (setCal r s).bank.calflags = calFlags r := rfl
@[simp] theorem setCal_raw (r : RegVal) (s : State) : (setCal r s).bank.raw = s.bank.raw := rfl
@[simp] theorem setCal_val (r : RegVal) (s : State) : (setCal r s).bank.val = s.bank.val := rfl
@[simp] theorem setCal_link (r : RegVal) (s : State) : (setCal r s).link = s.link := rfl
@[simp] theorem setCal_host (r : RegVal) (s : State) : (setCal r s).host = s.host := rfl
@[simp] theorem setCal_log (r : RegVal) (s : State) : (setCal r s).log = s.log := rfl
@[simp] theorem setCal_pending (r : RegVal) (s : State) : (setCal r s).pending = s.pending := rfl
@[simp] theorem setCal_tick (r : RegVal) (s : State) : (setCal r s).tick = s.tick := rfl

/-! ### `complete e s` -/

@[simp] theorem complete_st (e : ErrCode) (s : State) : (complete e s).seq.st = .idle := rfl
@[simp] theorem complete_cmd (e : ErrCode) (s : State) : (complete e s).seq.cmd = s.seq.cmd := rfl
@[simp] theorem complete_op (e : ErrCode) (s : State) : (complete e s).seq.op = s.seq.op := rfl
@[simp] theorem complete_abyte (e : ErrCode) (s : State) : (complete e s).seq.abyte = s.seq.abyte := rfl
@[simp] theorem complete_tx (e : ErrCode) (s : State) : (complete e s).seq.tx = s.seq.tx := rfl
@[simp] theorem complete_txLen (e : ErrCode) (s : State) : (complete e s).seq.txLen = s.seq.txLen := rfl
@[simp] theorem complete_txIdx (e : ErrCode) (s : State) : (complete e s).seq.txIdx = s.seq.txIdx := rfl
@[simp] theorem complete_rx (e : ErrCode) (s : State) : (complete e s).seq.rx = s.seq.rx := rfl
@[simp] theorem complete_rxNeed (e : ErrCode) (s : State) : (complete e s).seq.rxNeed = s.seq.rxNeed := rfl
@[simp] theorem complete_rxCnt (e : ErrCode) (s : State) : (complete e s).seq.rxCnt = s.seq.rxCnt := rfl
@[simp] theorem complete_chk (e : ErrCode) (s : State) : (complete e s).seq.chk = s.seq.chk := rfl
@[simp] theorem complete_dly (e : ErrCode) (s : State) : (complete e s).seq.dly = s.seq.dly := rfl
@[simp] theorem complete_txnOk (e : ErrCode) (s : State) : (complete e s).seq.txnOk = s.seq.txnOk := rfl
@[simp] theorem complete_txnRaw (e : ErrCode) (s : State) : (complete e s).seq.txnRaw = s.seq.txnRaw := rfl
@[simp] theorem complete_initIdx (e : ErrCode) (s : State) : (complete e s).seq.initIdx = s.seq.initIdx := rfl
@[simp] theorem complete_busy (e : ErrCode) (s : State) : (complete e s).bank.busy = false := rfl
@[simp] theorem complete_done (e : ErrCode) (s : State) : (complete e s).bank.done = true := rfl
@[simp] theorem complete_err (e : ErrCode) (s : State) : (complete e s).bank.err = e := rfl
@[simp] theorem complete_calerr (e : ErrCode) (s : State) : (complete e s).bank.calerr = s.bank.calerr := rfl
@[simp] theorem complete_calflags (e : ErrCode) (s : State) : (complete e s).bank.calflags = s.bank.calflags := rfl
@[simp] theorem complete_raw (e : ErrCode) (s : State) : (complete e s).bank.raw = s.bank.raw := rfl
@[simp] theorem complete_val (e : ErrCode) (s : State) : (complete e s).bank.val = s.bank.val := rfl
@[simp] theorem complete_link (e : ErrCode) (s : State) : (complete e s).link = s.link := rfl
@[simp] theorem complete_host (e : ErrCode) (s : State) : (complete e s).host = s.host := rfl
@[simp] theorem complete_log (e : ErrCode) (s : State) : (complete e s).log = s.log := rfl
@[simp] theorem complete_pending (e : ErrCode) (s : State) : (complete e s).pending = s.pending := rfl
@[simp] theorem complete_tick (e : ErrCode) (s : State) : (complete e s).tick = s.tick := rfl

/-! ### `accept w s` -/

@[simp] theorem accept_st (w : Word) (s : State) : (accept w s).seq.st = s.seq.st := rfl
@[simp] theorem accept_cmd (w : Word) (s : State) : (accept w s).seq.cmd = w := rfl
@[simp] theorem accept_op (w : Word) (s : State) : (accept w s).seq.op = s.seq.op := rfl
@[simp] theorem accept_abyte (w : Word) (s : State) : (accept w s).seq.abyte = s.seq.abyte := rfl
@[simp] theorem accept_tx (w : Word) (s : State) : (accept w s).seq.tx = s.seq.tx := rfl
@[simp] theorem accept_txLen (w : Word) (s : State) : (accept w s).seq.txLen = s.seq.txLen := rfl
@[simp] theorem accept_txIdx (w : Word) (s : State) : (accept w s).seq.txIdx = s.seq.txIdx := rfl
@[simp] theorem accept_rx (w : Word) (s : State) : (accept w s).seq.rx = s.seq.rx := rfl
@[simp] theorem accept_rxNeed (w : Word) (s : State) : (accept w s).seq.rxNeed = s.seq.rxNeed := rfl
@[simp] theorem accept_rxCnt (w : Word) (s : State) : (accept w s).seq.rxCnt = s.seq.rxCnt := rfl
@[simp] theorem accept_chk (w : Word) (s : State) : (accept w s).seq.chk = s.seq.chk := rfl
@[simp] theorem accept_dly (w : Word) (s : State) : (accept w s).seq.dly = s.seq.dly := rfl
@[simp] theorem accept_txnOk (w : Word) (s : State) : (accept w s).seq.txnOk = s.seq.txnOk := rfl
@[simp] theorem accept_txnRaw (w : Word) (s : State) : (accept w s).seq.txnRaw = s.seq.txnRaw := rfl
@[simp] theorem accept_initIdx (w : Word) (s : State) : (accept w s).seq.initIdx = s.seq.initIdx := rfl
@[simp] theorem accept_busy (w : Word) (s : State) : (accept w s).bank.busy = true := rfl
@[simp] theorem accept_done (w : Word) (s : State) : (accept w s).bank.done = false := rfl
@[simp] theorem accept_err (w : Word) (s : State) : (accept w s).bank.err = s.bank.err := rfl
@[simp] theorem accept_calerr (w : Word) (s : State) : (accept w s).bank.calerr = s.bank.calerr := rfl
@[simp] theorem accept_calflags (w : Word) (s : State) : (accept w s).bank.calflags = s.bank.calflags := rfl
@[simp] theorem accept_raw (w : Word) (s : State) : (accept w s).bank.raw = s.bank.raw := rfl
@[simp] theorem accept_val (w : Word) (s : State) : (accept w s).bank.val = s.bank.val := rfl
@[simp] theorem accept_link (w : Word) (s : State) : (accept w s).link = s.link := rfl
@[simp] theorem accept_host (w : Word) (s : State) : (accept w s).host = s.host := rfl
@[simp] theorem accept_log (w : Word) (s : State) : (accept w s).log = s.log := rfl
@[simp] theorem accept_pending (w : Word) (s : State) : (accept w s).pending = s.pending := rfl
@[simp] theorem accept_tick (w : Word) (s : State) : (accept w s).tick = s.tick := rfl

/-! ### `startTxn .read a d s` -/

@[simp] theorem startTxn_read_st (a : RegAddr) (d : RegVal) (s : State) : (startTxn .read a d s).seq.st = .tx := rfl
@[simp] theorem startTxn_read_cmd (a : RegAddr) (d : RegVal) (s : State) : (startTxn .read a d s).seq.cmd = s.seq.cmd := rfl
@[simp] theorem startTxn_read_op (a : RegAddr) (d : RegVal) (s : State) : (startTxn .read a d s).seq.op = .read := rfl
@[simp] theorem startTxn_read_abyte (a : RegAddr) (d : RegVal) (s : State) : (startTxn .read a d s).seq.abyte = addressByte a .read := rfl
@[simp] theorem startTxn_read_tx (a : RegAddr) (d : RegVal) (s : State) : (startTxn .read a d s).seq.tx = loadReadFrame a s.seq.tx := rfl
@[simp] theorem startTxn_read_txLen (a : RegAddr) (d : RegVal) (s : State) : (startTxn .read a d s).seq.txLen = 2 := rfl
@[simp] theorem startTxn_read_txIdx (a : RegAddr) (d : RegVal) (s : State) : (startTxn .read a d s).seq.txIdx = 0 := rfl
@[simp] theorem startTxn_read_rx (a : RegAddr) (d : RegVal) (s : State) : (startTxn .read a d s).seq.rx = s.seq.rx := rfl
@[simp] theorem startTxn_read_rxNeed (a : RegAddr) (d : RegVal) (s : State) : (startTxn .read a d s).seq.rxNeed = 3 := rfl
@[simp] theorem startTxn_read_rxCnt (a : RegAddr) (d : RegVal) (s : State) : (startTxn .read a d s).seq.rxCnt = 0 := rfl
@[simp] theorem startTxn_read_chk (a : RegAddr) (d : RegVal) (s : State) : (startTxn .read a d s).seq.chk = 0 := rfl
@[simp] theorem startTxn_read_dly (a : RegAddr) (d : RegVal) (s : State) : (startTxn .read a d s).seq.dly = s.seq.dly := rfl
@[simp] theorem startTxn_read_txnOk (a : RegAddr) (d : RegVal) (s : State) : (startTxn .read a d s).seq.txnOk = s.seq.txnOk := rfl
@[simp] theorem startTxn_read_txnRaw (a : RegAddr) (d : RegVal) (s : State) : (startTxn .read a d s).seq.txnRaw = s.seq.txnRaw := rfl
@[simp] theorem startTxn_read_initIdx (a : RegAddr) (d : RegVal) (s : State) : (startTxn .read a d s).seq.initIdx = s.seq.initIdx := rfl
@[simp] theorem startTxn_read_bank (a : RegAddr) (d : RegVal) (s : State) : (startTxn .read a d s).bank = s.bank := rfl
@[simp] theorem startTxn_read_link (a : RegAddr) (d : RegVal) (s : State) : (startTxn .read a d s).link = s.link := rfl
@[simp] theorem startTxn_read_host (a : RegAddr) (d : RegVal) (s : State) : (startTxn .read a d s).host = s.host := rfl
@[simp] theorem startTxn_read_log (a : RegAddr) (d : RegVal) (s : State) : (startTxn .read a d s).log = s.log := rfl
@[simp] theorem startTxn_read_pending (a : RegAddr) (d : RegVal) (s : State) : (startTxn .read a d s).pending = s.pending := rfl
@[simp] theorem startTxn_read_tick (a : RegAddr) (d : RegVal) (s : State) : (startTxn .read a d s).tick = s.tick := rfl

/-! ### `startTxn .write a d s` -/

@[simp] theorem startTxn_write_st (a : RegAddr) (d : RegVal) (s : State) : (startTxn .write a d s).seq.st = .tx := rfl
@[simp] theorem startTxn_write_cmd (a : RegAddr) (d : RegVal) (s : State) : (startTxn .write a d s).seq.cmd = s.seq.cmd := rfl
@[simp] theorem startTxn_write_op (a : RegAddr) (d : RegVal) (s : State) : (startTxn .write a d s).seq.op = .write := rfl
@[simp] theorem startTxn_write_abyte (a : RegAddr) (d : RegVal) (s : State) : (startTxn .write a d s).seq.abyte = addressByte a .write := rfl
@[simp] theorem startTxn_write_tx (a : RegAddr) (d : RegVal) (s : State) : (startTxn .write a d s).seq.tx = loadWriteFrame a d := rfl
@[simp] theorem startTxn_write_txLen (a : RegAddr) (d : RegVal) (s : State) : (startTxn .write a d s).seq.txLen = 5 := rfl
@[simp] theorem startTxn_write_txIdx (a : RegAddr) (d : RegVal) (s : State) : (startTxn .write a d s).seq.txIdx = 0 := rfl
@[simp] theorem startTxn_write_rx (a : RegAddr) (d : RegVal) (s : State) : (startTxn .write a d s).seq.rx = s.seq.rx := rfl
@[simp] theorem startTxn_write_rxNeed (a : RegAddr) (d : RegVal) (s : State) : (startTxn .write a d s).seq.rxNeed = 1 := rfl
@[simp] theorem startTxn_write_rxCnt (a : RegAddr) (d : RegVal) (s : State) : (startTxn .write a d s).seq.rxCnt = 0 := rfl
@[simp] theorem startTxn_write_chk (a : RegAddr) (d : RegVal) (s : State) : (startTxn .write a d s).seq.chk = writeChecksum (addressByte a .write) d := rfl
@[simp] theorem startTxn_write_dly (a : RegAddr) (d : RegVal) (s : State) : (startTxn .write a d s).seq.dly = s.seq.dly := rfl
@[simp] theorem startTxn_write_txnOk (a : RegAddr) (d : RegVal) (s : State) : (startTxn .write a d s).seq.txnOk = s.seq.txnOk := rfl
@[simp] theorem startTxn_write_txnRaw (a : RegAddr) (d : RegVal) (s : State) : (startTxn .write a d s).seq.txnRaw = s.seq.txnRaw := rfl
@[simp] theorem startTxn_write_initIdx (a : RegAddr) (d : RegVal) (s : State) : (startTxn .write a d s).seq.initIdx = s.seq.initIdx := rfl
@[simp] theorem startTxn_write_bank (a : RegAddr) (d : RegVal) (s : State) : (startTxn .write a d s).bank = s.bank := rfl
@[simp] theorem startTxn_write_link (a : RegAddr) (d : RegVal) (s : State) : (startTxn .write a d s).link = s.link := rfl
@[simp] theorem startTxn_write_host (a : RegAddr) (d : RegVal) (s : State) : (startTxn .write a d s).host = s.host := rfl
@[simp] theorem startTxn_write_log (a : RegAddr) (d : RegVal) (s : State) : (startTxn .write a d s).log = s.log := rfl
@[simp] theorem startTxn_write_pending (a : RegAddr) (d : RegVal) (s : State) : (startTxn .write a d s).pending = s.pending := rfl
@[simp] theorem startTxn_write_tick (a : RegAddr) (d : RegVal) (s : State) : (startTxn .write a d s).tick = s.tick := rfl

/-! ### `txSend b s` -/

@[simp] theorem txSend_seq (b : Byte) (s : State) : (txSend b s).seq = s.seq := rfl
@[simp] theorem txSend_bank (b : Byte) (s : State) : (txSend b s).bank = s.bank := rfl
@[simp] theorem txSend_txRoom (b : Byte) (s : State) : (txSend b s).link.txRoom = s.link.txRoom - 1 := rfl
@[simp] theorem txSend_txStream (b : Byte) (s : State) : (txSend b s).link.txStream = s.link.txStream ++ [b] := rfl
@[simp] theorem txSend_rxHeld (b : Byte) (s : State) : (txSend b s).link.rxHeld = s.link.rxHeld := rfl
@[simp] theorem txSend_host (b : Byte) (s : State) : (txSend b s).host = s.host := rfl
@[simp] theorem txSend_log (b : Byte) (s : State) : (txSend b s).log = s.log := rfl
@[simp] theorem txSend_pending (b : Byte) (s : State) : (txSend b s).pending = s.pending := rfl
@[simp] theorem txSend_tick (b : Byte) (s : State) : (txSend b s).tick = s.tick := rfl

/-! ### `rxTake b held s` -/

@[simp] theorem rxTake_st (b : Byte) (held : List Byte) (s : State) : (rxTake b held s).seq.st = s.seq.st := rfl
@[simp] theorem rxTake_cmd (b : Byte) (held : List Byte) (s : State) : (rxTake b held s).seq.cmd = s.seq.cmd := rfl
@[simp] theorem rxTake_op (b : Byte) (held : List Byte) (s : State) : (rxTake b held s).seq.op = s.seq.op := rfl
@[simp] theorem rxTake_abyte (b : Byte) (held : List Byte) (s : State) : (rxTake b held s).seq.abyte = s.seq.abyte := rfl
@[simp] theorem rxTake_tx (b : Byte) (held : List Byte) (s : State) : (rxTake b held s).seq.tx = s.seq.tx := rfl
@[simp] theorem rxTake_txLen (b : Byte) (held : List Byte) (s : State) : (rxTake b held s).seq.txLen = s.seq.txLen := rfl
@[simp] theorem rxTake_txIdx (b : Byte) (held : List Byte) (s : State) : (rxTake b held s).seq.txIdx = s.seq.txIdx := rfl
@[simp] theorem rxTake_rx (b : Byte) (held : List Byte) (s : State) : (rxTake b held s).seq.rx = s.seq.rx.setIfInBounds s.seq.rxCnt.toNat b := rfl
@[simp] theorem rxTake_rxNeed (b : Byte) (held : List Byte) (s : State) : (rxTake b held s).seq.rxNeed = s.seq.rxNeed := rfl
@[simp] theorem rxTake_rxCnt (b : Byte) (held : List Byte) (s : State) : (rxTake b held s).seq.rxCnt = s.seq.rxCnt + 1 := rfl
@[simp] theorem rxTake_chk (b : Byte) (held : List Byte) (s : State) : (rxTake b held s).seq.chk = s.seq.chk := rfl
@[simp] theorem rxTake_dly (b : Byte) (held : List Byte) (s : State) : (rxTake b held s).seq.dly = s.seq.dly := rfl
@[simp] theorem rxTake_txnOk (b : Byte) (held : List Byte) (s : State) : (rxTake b held s).seq.txnOk = s.seq.txnOk := rfl
@[simp] theorem rxTake_txnRaw (b : Byte) (held : List Byte) (s : State) : (rxTake b held s).seq.txnRaw = s.seq.txnRaw := rfl
@[simp] theorem rxTake_initIdx (b : Byte) (held : List Byte) (s : State) : (rxTake b held s).seq.initIdx = s.seq.initIdx := rfl
@[simp] theorem rxTake_bank (b : Byte) (held : List Byte) (s : State) : (rxTake b held s).bank = s.bank := rfl
@[simp] theorem rxTake_txRoom (b : Byte) (held : List Byte) (s : State) : (rxTake b held s).link.txRoom = s.link.txRoom := rfl
@[simp] theorem rxTake_txStream (b : Byte) (held : List Byte) (s : State) : (rxTake b held s).link.txStream = s.link.txStream := rfl
@[simp] theorem rxTake_rxHeld (b : Byte) (held : List Byte) (s : State) : (rxTake b held s).link.rxHeld = held := rfl
@[simp] theorem rxTake_host (b : Byte) (held : List Byte) (s : State) : (rxTake b held s).host = s.host := rfl
@[simp] theorem rxTake_log (b : Byte) (held : List Byte) (s : State) : (rxTake b held s).log = s.log := rfl
@[simp] theorem rxTake_pending (b : Byte) (held : List Byte) (s : State) : (rxTake b held s).pending = s.pending := rfl
@[simp] theorem rxTake_tick (b : Byte) (held : List Byte) (s : State) : (rxTake b held s).tick = s.tick := rfl

/-! ### `txnReadOk v s` -/

@[simp] theorem txnReadOk_st (v : RegVal) (s : State) : (txnReadOk v s).seq.st = s.seq.st := rfl
@[simp] theorem txnReadOk_cmd (v : RegVal) (s : State) : (txnReadOk v s).seq.cmd = s.seq.cmd := rfl
@[simp] theorem txnReadOk_op (v : RegVal) (s : State) : (txnReadOk v s).seq.op = s.seq.op := rfl
@[simp] theorem txnReadOk_abyte (v : RegVal) (s : State) : (txnReadOk v s).seq.abyte = s.seq.abyte := rfl
@[simp] theorem txnReadOk_tx (v : RegVal) (s : State) : (txnReadOk v s).seq.tx = s.seq.tx := rfl
@[simp] theorem txnReadOk_txLen (v : RegVal) (s : State) : (txnReadOk v s).seq.txLen = s.seq.txLen := rfl
@[simp] theorem txnReadOk_txIdx (v : RegVal) (s : State) : (txnReadOk v s).seq.txIdx = s.seq.txIdx := rfl
@[simp] theorem txnReadOk_rx (v : RegVal) (s : State) : (txnReadOk v s).seq.rx = s.seq.rx := rfl
@[simp] theorem txnReadOk_rxNeed (v : RegVal) (s : State) : (txnReadOk v s).seq.rxNeed = s.seq.rxNeed := rfl
@[simp] theorem txnReadOk_rxCnt (v : RegVal) (s : State) : (txnReadOk v s).seq.rxCnt = s.seq.rxCnt := rfl
@[simp] theorem txnReadOk_chk (v : RegVal) (s : State) : (txnReadOk v s).seq.chk = s.seq.chk := rfl
@[simp] theorem txnReadOk_dly (v : RegVal) (s : State) : (txnReadOk v s).seq.dly = s.seq.dly := rfl
@[simp] theorem txnReadOk_txnOk (v : RegVal) (s : State) : (txnReadOk v s).seq.txnOk = true := rfl
@[simp] theorem txnReadOk_txnRaw (v : RegVal) (s : State) : (txnReadOk v s).seq.txnRaw = v := rfl
@[simp] theorem txnReadOk_initIdx (v : RegVal) (s : State) : (txnReadOk v s).seq.initIdx = s.seq.initIdx := rfl
@[simp] theorem txnReadOk_bank (v : RegVal) (s : State) : (txnReadOk v s).bank = s.bank := rfl
@[simp] theorem txnReadOk_link (v : RegVal) (s : State) : (txnReadOk v s).link = s.link := rfl
@[simp] theorem txnReadOk_host (v : RegVal) (s : State) : (txnReadOk v s).host = s.host := rfl
@[simp] theorem txnReadOk_log (v : RegVal) (s : State) : (txnReadOk v s).log = s.log := rfl
@[simp] theorem txnReadOk_pending (v : RegVal) (s : State) : (txnReadOk v s).pending = s.pending := rfl
@[simp] theorem txnReadOk_tick (v : RegVal) (s : State) : (txnReadOk v s).tick = s.tick := rfl

/-! ### `txnWriteOk s` -/

@[simp] theorem txnWriteOk_st (s : State) : (txnWriteOk s).seq.st = s.seq.st := rfl
@[simp] theorem txnWriteOk_cmd (s : State) : (txnWriteOk s).seq.cmd = s.seq.cmd := rfl
@[simp] theorem txnWriteOk_op (s : State) : (txnWriteOk s).seq.op = s.seq.op := rfl
@[simp] theorem txnWriteOk_abyte (s : State) : (txnWriteOk s).seq.abyte = s.seq.abyte := rfl
@[simp] theorem txnWriteOk_tx (s : State) : (txnWriteOk s).seq.tx = s.seq.tx := rfl
@[simp] theorem txnWriteOk_txLen (s : State) : (txnWriteOk s).seq.txLen = s.seq.txLen := rfl
@[simp] theorem txnWriteOk_txIdx (s : State) : (txnWriteOk s).seq.txIdx = s.seq.txIdx := rfl
@[simp] theorem txnWriteOk_rx (s : State) : (txnWriteOk s).seq.rx = s.seq.rx := rfl
@[simp] theorem txnWriteOk_rxNeed (s : State) : (txnWriteOk s).seq.rxNeed = s.seq.rxNeed := rfl
@[simp] theorem txnWriteOk_rxCnt (s : State) : (txnWriteOk s).seq.rxCnt = s.seq.rxCnt := rfl
@[simp] theorem txnWriteOk_chk (s : State) : (txnWriteOk s).seq.chk = s.seq.chk := rfl
@[simp] theorem txnWriteOk_dly (s : State) : (txnWriteOk s).seq.dly = s.seq.dly := rfl
@[simp] theorem txnWriteOk_txnOk (s : State) : (txnWriteOk s).seq.txnOk = true := rfl
@[simp] theorem txnWriteOk_txnRaw (s : State) : (txnWriteOk s).seq.txnRaw = s.seq.txnRaw := rfl
@[simp] theorem txnWriteOk_initIdx (s : State) : (txnWriteOk s).seq.initIdx = s.seq.initIdx := rfl
@[simp] theorem txnWriteOk_bank (s : State) : (txnWriteOk s).bank = s.bank := rfl
@[simp] theorem txnWriteOk_link (s : State) : (txnWriteOk s).link = s.link := rfl
@[simp] theorem txnWriteOk_host (s : State) : (txnWriteOk s).host = s.host := rfl
@[simp] theorem txnWriteOk_log (s : State) : (txnWriteOk s).log = s.log := rfl
@[simp] theorem txnWriteOk_pending (s : State) : (txnWriteOk s).pending = s.pending := rfl
@[simp] theorem txnWriteOk_tick (s : State) : (txnWriteOk s).tick = s.tick := rfl

/-! ### `logRecord r s` -/

@[simp] theorem logRecord_seq (r : LogRecord) (s : State) : (logRecord r s).seq = s.seq := rfl
@[simp] theorem logRecord_bank (r : LogRecord) (s : State) : (logRecord r s).bank = s.bank := rfl
@[simp] theorem logRecord_link (r : LogRecord) (s : State) : (logRecord r s).link = s.link := rfl
@[simp] theorem logRecord_host (r : LogRecord) (s : State) : (logRecord r s).host = s.host := rfl
@[simp] theorem logRecord_log (r : LogRecord) (s : State) : (logRecord r s).log = s.log ++ [r] := rfl
@[simp] theorem logRecord_pending (r : LogRecord) (s : State) : (logRecord r s).pending = s.pending := rfl
@[simp] theorem logRecord_tick (r : LogRecord) (s : State) : (logRecord r s).tick = s.tick := rfl

/-! ### `enterPenalty s` -/

@[simp] theorem enterPenalty_st (s : State) : (enterPenalty s).seq.st = .penalty := rfl
@[simp] theorem enterPenalty_cmd (s : State) : (enterPenalty s).seq.cmd = s.seq.cmd := rfl
@[simp] theorem enterPenalty_op (s : State) : (enterPenalty s).seq.op = s.seq.op := rfl
@[simp] theorem enterPenalty_abyte (s : State) : (enterPenalty s).seq.abyte = s.seq.abyte := rfl
@[simp] theorem enterPenalty_tx (s : State) : (enterPenalty s).seq.tx = s.seq.tx := rfl
@[simp] theorem enterPenalty_txLen (s : State) : (enterPenalty s).seq.txLen = s.seq.txLen := rfl
@[simp] theorem enterPenalty_txIdx (s : State) : (enterPenalty s).seq.txIdx = s.seq.txIdx := rfl
@[simp] theorem enterPenalty_rx (s : State) : (enterPenalty s).seq.rx = s.seq.rx := rfl
@[simp] theorem enterPenalty_rxNeed (s : State) : (enterPenalty s).seq.rxNeed = s.seq.rxNeed := rfl
@[simp] theorem enterPenalty_rxCnt (s : State) : (enterPenalty s).seq.rxCnt = s.seq.rxCnt := rfl
@[simp] theorem enterPenalty_chk (s : State) : (enterPenalty s).seq.chk = s.seq.chk := rfl
@[simp] theorem enterPenalty_dly (s : State) : (enterPenalty s).seq.dly = Config.failDelay := rfl
@[simp] theorem enterPenalty_txnOk (s : State) : (enterPenalty s).seq.txnOk = s.seq.txnOk := rfl
@[simp] theorem enterPenalty_txnRaw (s : State) : (enterPenalty s).seq.txnRaw = s.seq.txnRaw := rfl
@[simp] theorem enterPenalty_initIdx (s : State) : (enterPenalty s).seq.initIdx = s.seq.initIdx := rfl
@[simp] theorem enterPenalty_bank (s : State) : (enterPenalty s).bank = s.bank := rfl
@[simp] theorem enterPenalty_link (s : State) : (enterPenalty s).link = s.link := rfl
@[simp] theorem enterPenalty_host (s : State) : (enterPenalty s).host = s.host := rfl
@[simp] theorem enterPenalty_log (s : State) : (enterPenalty s).log = s.log := rfl
@[simp] theorem enterPenalty_pending (s : State) : (enterPenalty s).pending = s.pending := rfl
@[simp] theorem enterPenalty_tick (s : State) : (enterPenalty s).tick = s.tick := rfl

/-! ### `readMismatch hi lo chk s` -/

@[simp] theorem readMismatch_st (hi lo chk : Byte) (s : State) : (readMismatch hi lo chk s).seq.st = .penalty := rfl
@[simp] theorem readMismatch_cmd (hi lo chk : Byte) (s : State) : (readMismatch hi lo chk s).seq.cmd = s.seq.cmd := rfl
@[simp] theorem readMismatch_op (hi lo chk : Byte) (s : State) : (readMismatch hi lo chk s).seq.op = s.seq.op := rfl
@[simp] theorem readMismatch_abyte (hi lo chk : Byte) (s : State) : (readMismatch hi lo chk s).seq.abyte = s.seq.abyte := rfl
@[simp] theorem readMismatch_tx (hi lo chk : Byte) (s : State) : (readMismatch hi lo chk s).seq.tx = s.seq.tx := rfl
@[simp] theorem readMismatch_txLen (hi lo chk : Byte) (s : State) : (readMismatch hi lo chk s).seq.txLen = s.seq.txLen := rfl
@[simp] theorem readMismatch_txIdx (hi lo chk : Byte) (s : State) : (readMismatch hi lo chk s).seq.txIdx = s.seq.txIdx := rfl
@[simp] theorem readMismatch_rx (hi lo chk : Byte) (s : State) : (readMismatch hi lo chk s).seq.rx = s.seq.rx := rfl
@[simp] theorem readMismatch_rxNeed (hi lo chk : Byte) (s : State) : (readMismatch hi lo chk s).seq.rxNeed = s.seq.rxNeed := rfl
@[simp] theorem readMismatch_rxCnt (hi lo chk : Byte) (s : State) : (readMismatch hi lo chk s).seq.rxCnt = s.seq.rxCnt := rfl
@[simp] theorem readMismatch_chk (hi lo chk : Byte) (s : State) : (readMismatch hi lo chk s).seq.chk = s.seq.chk := rfl
@[simp] theorem readMismatch_dly (hi lo chk : Byte) (s : State) : (readMismatch hi lo chk s).seq.dly = Config.failDelay := rfl
@[simp] theorem readMismatch_txnOk (hi lo chk : Byte) (s : State) : (readMismatch hi lo chk s).seq.txnOk = false := rfl
@[simp] theorem readMismatch_txnRaw (hi lo chk : Byte) (s : State) : (readMismatch hi lo chk s).seq.txnRaw = Config.readFailRaw := rfl
@[simp] theorem readMismatch_initIdx (hi lo chk : Byte) (s : State) : (readMismatch hi lo chk s).seq.initIdx = s.seq.initIdx := rfl
@[simp] theorem readMismatch_bank (hi lo chk : Byte) (s : State) : (readMismatch hi lo chk s).bank = s.bank := rfl
@[simp] theorem readMismatch_link (hi lo chk : Byte) (s : State) : (readMismatch hi lo chk s).link = s.link := rfl
@[simp] theorem readMismatch_host (hi lo chk : Byte) (s : State) : (readMismatch hi lo chk s).host = s.host := rfl
@[simp] theorem readMismatch_log (hi lo chk : Byte) (s : State) : (readMismatch hi lo chk s).log = s.log ++ [LogRecord.mk .read s.seq.abyte (readChecksum hi lo) chk] := rfl
@[simp] theorem readMismatch_pending (hi lo chk : Byte) (s : State) : (readMismatch hi lo chk s).pending = s.pending := rfl
@[simp] theorem readMismatch_tick (hi lo chk : Byte) (s : State) : (readMismatch hi lo chk s).tick = s.tick := rfl

/-! ### `writeMismatch echo s` -/

@[simp] theorem writeMismatch_st (echo : Byte) (s : State) : (writeMismatch echo s).seq.st = .penalty := rfl
@[simp] theorem writeMismatch_cmd (echo : Byte) (s : State) : (writeMismatch echo s).seq.cmd = s.seq.cmd := rfl
@[simp] theorem writeMismatch_op (echo : Byte) (s : State) : (writeMismatch echo s).seq.op = s.seq.op := rfl
@[simp] theorem writeMismatch_abyte (echo : Byte) (s : State) : (writeMismatch echo s).seq.abyte = s.seq.abyte := rfl
@[simp] theorem writeMismatch_tx (echo : Byte) (s : State) : (writeMismatch echo s).seq.tx = s.seq.tx := rfl
@[simp] theorem writeMismatch_txLen (echo : Byte) (s : State) : (writeMismatch echo s).seq.txLen = s.seq.txLen := rfl
@[simp] theorem writeMismatch_txIdx (echo : Byte) (s : State) : (writeMismatch echo s).seq.txIdx = s.seq.txIdx := rfl
@[simp] theorem writeMismatch_rx (echo : Byte) (s : State) : (writeMismatch echo s).seq.rx = s.seq.rx := rfl
@[simp] theorem writeMismatch_rxNeed (echo : Byte) (s : State) : (writeMismatch echo s).seq.rxNeed = s.seq.rxNeed := rfl
@[simp] theorem writeMismatch_rxCnt (echo : Byte) (s : State) : (writeMismatch echo s).seq.rxCnt = s.seq.rxCnt := rfl
@[simp] theorem writeMismatch_chk (echo : Byte) (s : State) : (writeMismatch echo s).seq.chk = s.seq.chk := rfl
@[simp] theorem writeMismatch_dly (echo : Byte) (s : State) : (writeMismatch echo s).seq.dly = Config.failDelay := rfl
@[simp] theorem writeMismatch_txnOk (echo : Byte) (s : State) : (writeMismatch echo s).seq.txnOk = false := rfl
@[simp] theorem writeMismatch_txnRaw (echo : Byte) (s : State) : (writeMismatch echo s).seq.txnRaw = s.seq.txnRaw := rfl
@[simp] theorem writeMismatch_initIdx (echo : Byte) (s : State) : (writeMismatch echo s).seq.initIdx = s.seq.initIdx := rfl
@[simp] theorem writeMismatch_bank (echo : Byte) (s : State) : (writeMismatch echo s).bank = s.bank := rfl
@[simp] theorem writeMismatch_link (echo : Byte) (s : State) : (writeMismatch echo s).link = s.link := rfl
@[simp] theorem writeMismatch_host (echo : Byte) (s : State) : (writeMismatch echo s).host = s.host := rfl
@[simp] theorem writeMismatch_log (echo : Byte) (s : State) : (writeMismatch echo s).log = s.log ++ [LogRecord.mk .write s.seq.abyte s.seq.chk echo] := rfl
@[simp] theorem writeMismatch_pending (echo : Byte) (s : State) : (writeMismatch echo s).pending = s.pending := rfl
@[simp] theorem writeMismatch_tick (echo : Byte) (s : State) : (writeMismatch echo s).tick = s.tick := rfl

/-! ### `blockReset s` -/

@[simp] theorem blockReset_seq (s : State) : (blockReset s).seq = SeqRegs.reset := rfl
@[simp] theorem blockReset_bank (s : State) : (blockReset s).bank = BankRegs.reset := rfl
@[simp] theorem blockReset_link (s : State) : (blockReset s).link = s.link := rfl
@[simp] theorem blockReset_host (s : State) : (blockReset s).host = s.host := rfl
@[simp] theorem blockReset_log (s : State) : (blockReset s).log = s.log := rfl
@[simp] theorem blockReset_pending (s : State) : (blockReset s).pending = s.pending := rfl
@[simp] theorem blockReset_tick (s : State) : (blockReset s).tick = s.tick := rfl

/-! ### `setInitIdx n s` -/

@[simp] theorem setInitIdx_st (n : Nat) (s : State) : (setInitIdx n s).seq.st = s.seq.st := rfl
@[simp] theorem setInitIdx_cmd (n : Nat) (s : State) : (setInitIdx n s).seq.cmd = s.seq.cmd := rfl
@[simp] theorem setInitIdx_op (n : Nat) (s : State) : (setInitIdx n s).seq.op = s.seq.op := rfl
@[simp] theorem setInitIdx_abyte (n : Nat) (s : State) : (setInitIdx n s).seq.abyte = s.seq.abyte := rfl
@[simp] theorem setInitIdx_tx (n : Nat) (s : State) : (setInitIdx n s).seq.tx = s.seq.tx := rfl
@[simp] theorem setInitIdx_txLen (n : Nat) (s : State) : (setInitIdx n s).seq.txLen = s.seq.txLen := rfl
@[simp] theorem setInitIdx_txIdx (n : Nat) (s : State) : (setInitIdx n s).seq.txIdx = s.seq.txIdx := rfl
@[simp] theorem setInitIdx_rx (n : Nat) (s : State) : (setInitIdx n s).seq.rx = s.seq.rx := rfl
@[simp] theorem setInitIdx_rxNeed (n : Nat) (s : State) : (setInitIdx n s).seq.rxNeed = s.seq.rxNeed := rfl
@[simp] theorem setInitIdx_rxCnt (n : Nat) (s : State) : (setInitIdx n s).seq.rxCnt = s.seq.rxCnt := rfl
@[simp] theorem setInitIdx_chk (n : Nat) (s : State) : (setInitIdx n s).seq.chk = s.seq.chk := rfl
@[simp] theorem setInitIdx_dly (n : Nat) (s : State) : (setInitIdx n s).seq.dly = s.seq.dly := rfl
@[simp] theorem setInitIdx_txnOk (n : Nat) (s : State) : (setInitIdx n s).seq.txnOk = s.seq.txnOk := rfl
@[simp] theorem setInitIdx_txnRaw (n : Nat) (s : State) : (setInitIdx n s).seq.txnRaw = s.seq.txnRaw := rfl
@[simp] theorem setInitIdx_initIdx (n : Nat) (s : State) : (setInitIdx n s).seq.initIdx = n := rfl
@[simp] theorem setInitIdx_bank (n : Nat) (s : State) : (setInitIdx n s).bank = s.bank := rfl
@[simp] theorem setInitIdx_link (n : Nat) (s : State) : (setInitIdx n s).link = s.link := rfl
@[simp] theorem setInitIdx_host (n : Nat) (s : State) : (setInitIdx n s).host = s.host := rfl
@[simp] theorem setInitIdx_log (n : Nat) (s : State) : (setInitIdx n s).log = s.log := rfl
@[simp] theorem setInitIdx_pending (n : Nat) (s : State) : (setInitIdx n s).pending = s.pending := rfl
@[simp] theorem setInitIdx_tick (n : Nat) (s : State) : (setInitIdx n s).tick = s.tick := rfl

/-! ### `seqSettle s` -/

@[simp] theorem seqSettle_st (s : State) : (seqSettle s).seq.st = .rx := rfl
@[simp] theorem seqSettle_cmd (s : State) : (seqSettle s).seq.cmd = s.seq.cmd := rfl
@[simp] theorem seqSettle_op (s : State) : (seqSettle s).seq.op = s.seq.op := rfl
@[simp] theorem seqSettle_abyte (s : State) : (seqSettle s).seq.abyte = s.seq.abyte := rfl
@[simp] theorem seqSettle_tx (s : State) : (seqSettle s).seq.tx = s.seq.tx := rfl
@[simp] theorem seqSettle_txLen (s : State) : (seqSettle s).seq.txLen = s.seq.txLen := rfl
@[simp] theorem seqSettle_txIdx (s : State) : (seqSettle s).seq.txIdx = s.seq.txIdx := rfl
@[simp] theorem seqSettle_rx (s : State) : (seqSettle s).seq.rx = s.seq.rx := rfl
@[simp] theorem seqSettle_rxNeed (s : State) : (seqSettle s).seq.rxNeed = s.seq.rxNeed := rfl
@[simp] theorem seqSettle_rxCnt (s : State) : (seqSettle s).seq.rxCnt = s.seq.rxCnt := rfl
@[simp] theorem seqSettle_chk (s : State) : (seqSettle s).seq.chk = s.seq.chk := rfl
@[simp] theorem seqSettle_dly (s : State) : (seqSettle s).seq.dly = s.seq.dly := rfl
@[simp] theorem seqSettle_txnOk (s : State) : (seqSettle s).seq.txnOk = s.seq.txnOk := rfl
@[simp] theorem seqSettle_txnRaw (s : State) : (seqSettle s).seq.txnRaw = s.seq.txnRaw := rfl
@[simp] theorem seqSettle_initIdx (s : State) : (seqSettle s).seq.initIdx = s.seq.initIdx := rfl
@[simp] theorem seqSettle_bank (s : State) : (seqSettle s).bank = s.bank := rfl
@[simp] theorem seqSettle_link (s : State) : (seqSettle s).link = s.link := rfl
@[simp] theorem seqSettle_host (s : State) : (seqSettle s).host = s.host := rfl
@[simp] theorem seqSettle_log (s : State) : (seqSettle s).log = s.log := rfl
@[simp] theorem seqSettle_pending (s : State) : (seqSettle s).pending = s.pending := rfl
@[simp] theorem seqSettle_tick (s : State) : (seqSettle s).tick = s.tick := rfl

/-! ### `recordObservation s` -/

@[simp] theorem recordObservation_seq (s : State) : (recordObservation s).seq = s.seq := rfl
@[simp] theorem recordObservation_bank (s : State) : (recordObservation s).bank = s.bank := rfl
@[simp] theorem recordObservation_link (s : State) : (recordObservation s).link = s.link := rfl
@[simp] theorem recordObservation_program (s : State) : (recordObservation s).host.program = s.host.program := rfl
@[simp] theorem recordObservation_polling (s : State) : (recordObservation s).host.polling = s.host.polling := rfl
@[simp] theorem recordObservation_readData (s : State) : (recordObservation s).host.readData = s.host.readData := rfl
@[simp] theorem recordObservation_observed (s : State) : (recordObservation s).host.observed = s.host.observed ++ [s.host.readData] := rfl
@[simp] theorem recordObservation_log (s : State) : (recordObservation s).log = s.log := rfl
@[simp] theorem recordObservation_pending (s : State) : (recordObservation s).pending = s.pending := rfl
@[simp] theorem recordObservation_tick (s : State) : (recordObservation s).tick = s.tick := rfl

/-! ### `pollSeen s` -/

@[simp] theorem pollSeen_seq (s : State) : (pollSeen s).seq = s.seq := rfl
@[simp] theorem pollSeen_bank (s : State) : (pollSeen s).bank = s.bank := rfl
@[simp] theorem pollSeen_link (s : State) : (pollSeen s).link = s.link := rfl
@[simp] theorem pollSeen_program (s : State) : (pollSeen s).host.program = s.host.program := rfl
@[simp] theorem pollSeen_polling (s : State) : (pollSeen s).host.polling = !s.host.readData.getLsbD 1 := rfl
@[simp] theorem pollSeen_readData (s : State) : (pollSeen s).host.readData = s.host.readData := rfl
@[simp] theorem pollSeen_observed (s : State) : (pollSeen s).host.observed = s.host.observed := rfl
@[simp] theorem pollSeen_log (s : State) : (pollSeen s).log = s.log := rfl
@[simp] theorem pollSeen_pending (s : State) : (pollSeen s).pending = s.pending := rfl
@[simp] theorem pollSeen_tick (s : State) : (pollSeen s).tick = s.tick := rfl

/-! ### `linkAccepts s` -/

@[simp] theorem linkAccepts_seq (s : State) : (linkAccepts s).seq = s.seq := rfl
@[simp] theorem linkAccepts_bank (s : State) : (linkAccepts s).bank = s.bank := rfl
@[simp] theorem linkAccepts_txRoom (s : State) : (linkAccepts s).link.txRoom = s.link.txRoom + 1 := rfl
@[simp] theorem linkAccepts_txStream (s : State) : (linkAccepts s).link.txStream = s.link.txStream := rfl
@[simp] theorem linkAccepts_rxHeld (s : State) : (linkAccepts s).link.rxHeld = s.link.rxHeld := rfl
@[simp] theorem linkAccepts_host (s : State) : (linkAccepts s).host = s.host := rfl
@[simp] theorem linkAccepts_log (s : State) : (linkAccepts s).log = s.log := rfl
@[simp] theorem linkAccepts_pending (s : State) : (linkAccepts s).pending = s.pending := rfl
@[simp] theorem linkAccepts_tick (s : State) : (linkAccepts s).tick = s.tick := rfl

/-! ### `linkDelivers b s` -/

@[simp] theorem linkDelivers_seq (b : Byte) (s : State) : (linkDelivers b s).seq = s.seq := rfl
@[simp] theorem linkDelivers_bank (b : Byte) (s : State) : (linkDelivers b s).bank = s.bank := rfl
@[simp] theorem linkDelivers_txRoom (b : Byte) (s : State) : (linkDelivers b s).link.txRoom = s.link.txRoom := rfl
@[simp] theorem linkDelivers_txStream (b : Byte) (s : State) : (linkDelivers b s).link.txStream = s.link.txStream := rfl
@[simp] theorem linkDelivers_rxHeld (b : Byte) (s : State) : (linkDelivers b s).link.rxHeld = s.link.rxHeld ++ [b] := rfl
@[simp] theorem linkDelivers_host (b : Byte) (s : State) : (linkDelivers b s).host = s.host := rfl
@[simp] theorem linkDelivers_log (b : Byte) (s : State) : (linkDelivers b s).log = s.log := rfl
@[simp] theorem linkDelivers_pending (b : Byte) (s : State) : (linkDelivers b s).pending = s.pending := rfl
@[simp] theorem linkDelivers_tick (b : Byte) (s : State) : (linkDelivers b s).tick = s.tick := rfl

/-! ### `hostLoads st s` -/

@[simp] theorem hostLoads_seq (st : HostStmt) (s : State) : (hostLoads st s).seq = s.seq := rfl
@[simp] theorem hostLoads_bank (st : HostStmt) (s : State) : (hostLoads st s).bank = s.bank := rfl
@[simp] theorem hostLoads_link (st : HostStmt) (s : State) : (hostLoads st s).link = s.link := rfl
@[simp] theorem hostLoads_program (st : HostStmt) (s : State) : (hostLoads st s).host.program = s.host.program ++ [st] := rfl
@[simp] theorem hostLoads_polling (st : HostStmt) (s : State) : (hostLoads st s).host.polling = s.host.polling := rfl
@[simp] theorem hostLoads_readData (st : HostStmt) (s : State) : (hostLoads st s).host.readData = s.host.readData := rfl
@[simp] theorem hostLoads_observed (st : HostStmt) (s : State) : (hostLoads st s).host.observed = s.host.observed := rfl
@[simp] theorem hostLoads_log (st : HostStmt) (s : State) : (hostLoads st s).log = s.log := rfl
@[simp] theorem hostLoads_pending (st : HostStmt) (s : State) : (hostLoads st s).pending = s.pending := rfl
@[simp] theorem hostLoads_tick (st : HostStmt) (s : State) : (hostLoads st s).tick = s.tick := rfl

end Sys2Proof.Machine
end

