-- ==== Sys2Proof/Laws/Ops.lean ====
section
/-! SUPPORT. Everything a shared operation can do, said once: what holds of the state it answers. -/

namespace Sys2Proof.Machine

/-- `txAdvance` writes the index, the state and the delay, and nothing outside the Sequencer. -/
theorem txAdvance_cases (len : BitVec 3) (s : State) :
    (s.seq.txIdx + 1 = len ∧ txAdvance len s =
      { s with seq := { s.seq with txIdx := s.seq.txIdx + 1, st := .settle, dly := Config.settleDelay } }) ∨
    (s.seq.txIdx + 1 ≠ len ∧ txAdvance len s = { s with seq := { s.seq with txIdx := s.seq.txIdx + 1 } }) := by
  by_cases h : s.seq.txIdx + 1 = len
  · exact .inl ⟨h, by rw [txAdvance, if_pos h]⟩
  · exact .inr ⟨h, by rw [txAdvance, if_neg h]⟩

/-- The transmit step waits, or hands over the byte at the index and advances. -/
theorem transmit_cases {frame : List Byte} {len : BitVec 3} {s t : State} (h : transmit frame len s = .next t) :
    (s.link.txRoom = 0 ∧ t = s) ∨
    ∃ b, s.link.txRoom ≠ 0 ∧ frame[s.seq.txIdx.toNat]? = some b ∧ t = txAdvance len (txSend b s) := by
  unfold transmit at h
  split at h
  · rename_i h0
    exact .inl ⟨h0, by cases h; rfl⟩
  · rename_i h0
    split at h
    · cases h
    · rename_i b hb
      exact .inr ⟨b, h0, hb, by cases h; rfl⟩

/-- `playEntry` starts the write of the entry at the index, or completes past the last one. -/
theorem playEntry_cases (table : List InitEntry) (s : State) :
    (∃ e, table[s.seq.initIdx]? = some e ∧ playEntry table s = startTxn .write e.addr e.data s) ∨
    (table.length ≤ s.seq.initIdx ∧ playEntry table s = complete .none s) := by
  unfold playEntry
  cases h : table[s.seq.initIdx]? with
  | some e => exact .inl ⟨e, rfl, rfl⟩
  | none => exact .inr ⟨List.getElem?_eq_none_iff.mp h, rfl⟩

/-- `finish` belongs to one of five opcodes (41_transaction_engine.md R140). -/
theorem finish_cases {s t : State} (h : finish s = .next t) :
    (opcOf s.seq.cmd = 0x1 ∧ t = finishRdreg s) ∨ (opcOf s.seq.cmd = 0x2 ∧ t = finishWrreg s) ∨
    (opcOf s.seq.cmd = 0x3 ∧ ∃ tag div, tagOfCode (tagCodeOf s.seq.cmd) = some tag ∧
      divOfCode (divCodeOf s.seq.cmd) = some div ∧
      t = complete (errOfTxn s.seq.txnOk) (setVal (decodeValue s.seq.txnRaw tag div) (setRaw s.seq.txnRaw s))) ∨
    (opcOf s.seq.cmd = 0x5 ∧ t = nextInit initTable s) ∨ (opcOf s.seq.cmd = 0x6 ∧ t = finishCalerr s) := by
  unfold finish at h
  split at h
  · exact .inl ⟨‹_›, by cases h; rfl⟩
  split at h
  · exact .inr (.inl ⟨‹_›, by cases h; rfl⟩)
  split at h
  · refine .inr (.inr (.inl ⟨‹_›, ?_⟩))
    unfold finishRddec at h
    split at h
    · rename_i tag div ht hd
      exact ⟨tag, div, ht, hd, by cases h; rfl⟩
    · cases h
  split at h
  · exact .inr (.inr (.inr (.inl ⟨‹_›, by cases h; rfl⟩)))
  split at h
  · exact .inr (.inr (.inr (.inr ⟨‹_›, by cases h; rfl⟩)))
  · cases h

/-- A read of the bank changes only the value the Host holds (20_memory.md R70). -/
theorem hostRead_cases {off bytes : Nat} {s t : State} (h : hostRead off bytes s = .next t) :
    ∃ v, bytes = 4 ∧ bankWord off s.bank = some v ∧ t = { s with host := { s.host with readData := v } } := by
  unfold hostRead at h
  split at h
  · rename_i h4
    split at h
    · rename_i v hv
      exact ⟨v, h4, hv, by cases h; rfl⟩
    · cases h
  · cases h

/-- A write of the bank is an accept (10_state.md R25). -/
theorem hostWrite_cases {off bytes : Nat} {v : Word} {s t : State} (h : hostWrite off bytes v s = .next t) :
    bytes = 4 ∧ off = 0 ∧ s.bank.busy = false ∧ t = accept v s := by
  unfold hostWrite at h
  split at h
  · rename_i h4
    split at h
    · cases h
    · rename_i hb
      exact ⟨h4.1, h4.2, by simpa using hb, by cases h; rfl⟩
  · cases h

/-- The receive step waits, takes a byte, or takes the last byte and validates. -/
theorem seqReceive_cases {s t : State} (h : seqReceive s = .next t) :
    (s.link.rxHeld = [] ∧ t = s) ∨
    ∃ b held, s.link.rxHeld = b :: held ∧ s.seq.rxCnt ≠ 3 ∧
      ((s.seq.rxCnt + 1 ≠ s.seq.rxNeed ∧ t = rxTake b held s) ∨
       (s.seq.rxCnt + 1 = s.seq.rxNeed ∧ validate (rxTake b held s) = .next t)) := by
  unfold seqReceive at h
  split at h
  · exact .inl ⟨‹_›, by cases h; rfl⟩
  · rename_i b held hq
    refine .inr ⟨b, held, hq, ?_⟩
    split at h
    · cases h
    · rename_i h3
      refine ⟨h3, ?_⟩
      split at h
      · exact .inr ⟨‹_›, h⟩
      · exact .inl ⟨‹_›, by cases h; rfl⟩

/-- `validate` runs the response in the buffer as the transaction's kind has it (41_transaction_engine.md R138). -/
theorem validate_eq (s : State) :
    validate s = match s.seq.op with
      | .read => execFrameRdResp s.seq.rx[0] s.seq.rx[1] s.seq.rx[2] s
      | .write => execFrameWrAck s.seq.rx[0] s := by
  unfold validate responseCode
  cases s.seq.op <;> rfl

/-- The schedule is the only part of the state that choosing the next event spends. -/
theorem nextEvent_frame (s : State) :
    (nextEvent s).2.seq = s.seq ∧ (nextEvent s).2.bank = s.bank ∧ (nextEvent s).2.link = s.link ∧
    (nextEvent s).2.host = s.host ∧ (nextEvent s).2.log = s.log := by
  unfold nextEvent
  cases s.pending <;> exact ⟨rfl, rfl, rfl, rfl, rfl⟩

@[simp] theorem nextEvent_scheduled (s : State) (e : Event) (rest : List Event) (h : s.pending = e :: rest) :
    nextEvent s = (e, { s with pending := rest }) := by
  simp [nextEvent, h]

end Sys2Proof.Machine
end

