-- ==== Sys2Proof/Laws/Invariant.lean ====
section
/-! SUPPORT. How the parts of the invariant come about: the delays fit their width, a completion and a started transaction
meet the invariant. -/

namespace Sys2Proof.Machine

/-- A width holds `n` if and only if it is at least `leastWidth n` (00_scope.md R7). -/
theorem leastWidth_le_iff (n w : Nat) : Config.leastWidth n ≤ w ↔ n < 2 ^ w := by
  unfold Config.leastWidth
  split
  · simp [*, Nat.two_pow_pos]
  · rw [Nat.succ_le_iff, Nat.log2_lt ‹_›]

theorem settleDelay_fits : Config.settleDelay < 2 ^ Config.delayWidth :=
  Nat.lt_of_le_of_lt (Nat.le_max_left _ _) ((leastWidth_le_iff _ _).mp (Nat.le_add_right _ _))

theorem failDelay_fits : Config.failDelay < 2 ^ Config.delayWidth :=
  Nat.lt_of_le_of_lt (Nat.le_max_right _ _) ((leastWidth_le_iff _ _).mp (Nat.le_add_right _ _))

/-- `init_idx` fits `INIT_IDX_WIDTH` where it is at most the table's length. -/
theorem initIdx_fits {n : Nat} (h : n ≤ initTable.length) : n < 2 ^ initIdxWidth :=
  Nat.lt_of_le_of_lt h ((leastWidth_le_iff _ _).mp (Nat.le_add_right _ _))

/-- The Host's address of a bank word lies in the block's 32 bytes, which are aligned to 32 (20_memory.md R64). -/
theorem hostAddress_bankOffset (r : BankReg) : hostAddress (bankOffset r) / 32 * 32 = Config.hostBase := by
  unfold hostAddress Config.hostBase
  cases r <;> simp only [bankOffset] <;> omega

/-- `CALERR` and `CALFLAGS` of one status value agree. -/
theorem calErr_eq (r : RegVal) : calErr r = (calFlags r != 0) := by
  unfold calErr calFlags calFlagsOf
  generalize calTest r Config.calMask0 = a
  generalize calTest r Config.calMask1 = b
  generalize calTest r Config.calMask2 = c
  generalize calTest r Config.calMask3 = d
  revert a b c d
  decide

/-- What `start_txn` loads is the transaction it is given. -/
theorem startTxn_loaded (kind : TxnKind) (addr : RegAddr) (data : RegVal) (s : State) (h : kind = .read → data = 0) :
    TxnLoaded (startTxn kind addr data s).seq kind addr data := by
  cases kind with
  | read =>
    cases h rfl
    exact ⟨rfl, rfl, rfl, rfl, rfl, rfl⟩
  | write => exact ⟨rfl, rfl, rfl, rfl, rfl, rfl⟩

/-- A transaction that a busy, legal command starts meets the invariant. -/
theorem inv_startTxn {s : State} {i : Instr} {kind : TxnKind} {addr : RegAddr} {data : RegVal}
    (notBoth : ¬(s.bank.busy = true ∧ s.bank.done = true)) (calerr : s.bank.calerr = (s.bank.calflags != 0))
    (dly : s.seq.dly < 2 ^ Config.delayWidth) (initIdx : s.seq.initIdx ≤ initTable.length)
    (busy : s.bank.busy = true) (hi : decode (.command s.seq.cmd) = .ok i)
    (ht : txnOfCommand i s.seq.initIdx = some (kind, addr, data)) : Inv (startTxn kind addr data s) := by
  have hr : kind = .read → data = 0 := by
    rintro rfl
    cases i with
    | beginInit =>
      simp only [txnOfCommand, Option.map_eq_some_iff] at ht
      obtain ⟨_, _, he⟩ := ht
      cases he
    | _ => simp_all [txnOfCommand]
  have hl := startTxn_loaded kind addr data s hr
  cases kind with
  | read =>
    exact ⟨notBoth, calerr, dly, initIdx, fun _ => ⟨busy, ⟨i, _, addr, data, hi, ht, hl⟩, by simp [phaseOk]⟩⟩
  | write =>
    exact ⟨notBoth, calerr, dly, initIdx, fun _ => ⟨busy, ⟨i, _, addr, data, hi, ht, hl⟩, by simp [phaseOk]⟩⟩

/-- A completion meets the invariant. -/
theorem inv_complete {s : State} (e : ErrCode) (calerr : s.bank.calerr = (s.bank.calflags != 0))
    (dly : s.seq.dly < 2 ^ Config.delayWidth) (initIdx : s.seq.initIdx ≤ initTable.length) :
    Inv (complete e s) :=
  ⟨by simp, by simpa using calerr, by simpa using dly, by simpa using initIdx, by simp⟩

end Sys2Proof.Machine
end

