-- ==== Sys2Proof/Laws/PerInstr.lean ====
section
/-! SUPPORT. `Width`: an instruction's encoding has as many bits as spec/opcode_table.json gives its row, command by command
and frame by frame (30_encoding.md R88, R90, R92, R93). -/

namespace Sys2Proof.Laws.Width

/-- The encoding of `i` has the number of bits of its row. -/
def Statement (i : Instr) : Prop := (encode i).bits = i.tableBits

theorem rdreg (addr : RegAddr) : Statement (.rdreg addr) := rfl
theorem wrreg (addr : RegAddr) (data : RegVal) : Statement (.wrreg addr data) := rfl
theorem rddec (addr : RegAddr) (tag : Tag) (div : Div) : Statement (.rddec addr tag div) := rfl
theorem decode (data : RegVal) (tag : Tag) (div : Div) : Statement (.decode data tag div) := rfl
theorem beginInit : Statement .beginInit := rfl
theorem calerr : Statement .calerr := rfl
theorem frameRdReq (addr : RegAddr) : Statement (.frameRdReq addr) := rfl
theorem frameWrReq (addr : RegAddr) (data : RegVal) : Statement (.frameWrReq addr data) := rfl
theorem frameRdResp (hi lo chk : Byte) : Statement (.frameRdResp hi lo chk) := rfl
theorem frameWrAck (echo : Byte) : Statement (.frameWrAck echo) := rfl

end Sys2Proof.Laws.Width
end

