-- ==== Sys2Proof/Tests/Slice0.lean ====
section
/-! SUPPORT. Tests whose expected results are the spec's own vectors (95_test_vectors.md, and the words of 30_encoding.md R97
written out bit by bit), each about one operation or one step; and a named witness for the hypotheses of each statement. -/

namespace Sys2Proof.Tests

open Sys2Proof Sys2Proof.Machine

/-- What a result shows of its next state. -/
def after {α : Type} (r : Result) (f : State → α) : Option α :=
  match r with
  | .next t => some (f t)
  | .fault _ => none
  | .refused _ => none

/-- The fault of a result. -/
def faultOf (r : Result) : Option Fault :=
  match r with
  | .next _ => none
  | .fault f => some f
  | .refused _ => none

/-- A command word accepted after reset, with a Link that has room and holds bytes, and `n` steps of the Sequencer
scheduled. -/
def accepted (w : Word) (room : Nat) (held : List Byte) (n : Nat) : State :=
  { accept w State.reset with
    link := { txRoom := room, txStream := [], rxHeld := held }
    pending := List.replicate n .sequencer }

/-- A transaction in `RX` that lacks its last response byte, which the Link holds. -/
def lastByte (w : Word) (kind : TxnKind) (addr : RegAddr) (data : RegVal) (idx : Nat) (b0 b1 b : Byte) : State :=
  let t := startTxn kind addr data (accept w (setInitIdx idx State.reset))
  { t with
    seq := { t.seq with st := .rx, txIdx := t.seq.txLen, rx := #v[b0, b1, 0], rxCnt := t.seq.rxNeed - 1 }
    link := { txRoom := 0, txStream := [], rxHeld := [b] }
    pending := [.sequencer] }

/-! ### Well-formedness -/

/-- 30_encoding.md R84: `TAG` = 0 admits only `DIV` = 0. -/
theorem test_wf_refuses_rddec_raw_scaled : (Instr.rddec 0x01 .raw .d10).wf = false := by decide

theorem test_wf_refuses_decode_raw_scaled : (Instr.decode 0x0001 .raw .denergy).wf = false := by decide

theorem test_wf_admits_raw_d1 : (Instr.rddec 0x7F .raw .d1).wf = true := by decide

/-! ### Decoding: words and frames written out bit by bit, fields OPC DIV TAG ADDR DATA (30_encoding.md R80) -/

theorem test_decode_rdreg : decodeTableWord 32 0b0001_000_00_0000001_0000000000000000 = some (.rdreg 0x01) := by decide

theorem test_decode_wrreg :
    decodeTableWord 32 0b0010_000_00_0000001_0001001000110100 = some (.wrreg 0x01 0x1234) := by decide

theorem test_decode_rddec :
    decodeTableWord 32 0b0011_101_01_1111111_0000000000000000 = some (.rddec 0x7F .usc .denergy) := by decide

theorem test_decode_decode :
    decodeTableWord 32 0b0100_100_10_0000000_1000000000000101 = some (.decode 0x8005 .sms .d1000) := by decide

theorem test_decode_begin : decodeTableWord 32 0b0101_000_00_0000000_0000000000000000 = some .beginInit := by decide

theorem test_decode_calerr : decodeTableWord 32 0b0110_000_00_0000000_0000000000000000 = some .calerr := by decide

theorem test_decode_read_request : decodeTableWord 16 0b11111110_10000001 = some (.frameRdReq 0x01) := by decide

theorem test_decode_write_request :
    decodeTableWord 40 0b11111110_00000001_00010010_00110100_01000111 = some (.frameWrReq 0x01 0x1234) := by decide

theorem test_decode_read_response :
    decodeTableWord 24 0b00010010_00110100_01000110 = some (.frameRdResp 0x12 0x34 0x46) := by decide

theorem test_decode_write_ack : decodeTableWord 8 0b01000111 = some (.frameWrAck 0x47) := by decide

/-- V-ILL-01 to V-ILL-09, with the name of each refusal. -/
theorem test_illegal_opcodes : decode (.command 0x00000000) = .error .unassignedOpcode ∧
    decode (.command 0x70000000) = .error .unassignedOpcode ∧
    decode (.command 0xF0000000) = .error .unassignedOpcode := by decide

theorem test_illegal_unused_fields : decode (.command 0x10800000) = .error .unusedFieldNotZero ∧
    decode (.command 0x10010001) = .error .unusedFieldNotZero ∧
    decode (.command 0x22011234) = .error .unusedFieldNotZero ∧
    decode (.command 0x40810000) = .error .unusedFieldNotZero ∧
    decode (.command 0x50000001) = .error .unusedFieldNotZero ∧
    decode (.command 0x60800000) = .error .unusedFieldNotZero := by decide

/-- V-ILL-09, V-ILL-10, V-ILL-12. -/
theorem test_illegal_codes : decode (.command 0x31810000) = .error .reservedTag ∧
    decode (.command 0x3C810000) = .error .reservedDiv ∧
    decode (.command 0x32010000) = .error .illegalPair := by decide

/-- A write request with the checksum of V-COD-05 changed, a frame without the sentinel, a frame cut short. -/
theorem test_bad_frames : decode (.request [0xFE, 0x01, 0x12, 0x34, 0x48]) = .error .badChecksum ∧
    decode (.request [0x01, 0x81]) = .error .badSentinel ∧ decode (.request [0xFE, 0x01, 0x12]) = .error .truncated ∧
    decode (.request [0xFE, 0x81, 0x00]) = .error .trailingBytes := by decide

/-! ### Frame Codec (95_test_vectors.md section 2) -/

/-- V-COD-13, V-COD-05, V-COD-06, V-COD-07, V-COD-24. -/
theorem test_encode_requests : encodeRead 0x7E = [0xFE, 0xFE] ∧
    encodeWrite 0x01 0x1234 = [0xFE, 0x01, 0x12, 0x34, 0x47] ∧
    encodeWrite 0x7F 0xFFFF = [0xFE, 0x7F, 0xFF, 0xFF, 0x7D] ∧
    encodeWrite 0x02 0x00FE = [0xFE, 0x02, 0x00, 0xFE, 0x00] ∧
    encodeWrite 0x00 0xFF01 = [0xFE, 0x00, 0xFF, 0x01, 0x00] := by decide

/-- V-COD-14, V-COD-15, V-COD-16, V-COD-18, V-COD-20; V-SRC-02. -/
theorem test_decode_responses : decodeRead 0x12 0x34 0x46 = some 0x1234 ∧ decodeRead 0x12 0x34 0x47 = none ∧
    decodeRead 0xFF 0xFF 0xFE = some 0xFFFF ∧ decodeRead 0x13 0x33 0x46 = some 0x1333 ∧
    decodeRead 0x80 0x80 0x00 = some 0x8080 ∧ decodeRead 0x34 0x12 0x46 = some 0x3412 := by decide

/-! ### Telemetry Decoder (95_test_vectors.md section 4) -/

/-- V-DEC-04, V-DEC-06, V-DEC-03, V-DEC-05. -/
theorem test_unsigned_scaled : decodeValue 0xFFFF .usc .d1000 = 0x4050623D70A3D70A ∧
    decodeValue 0xFFFF .usc .d10 = 0x40B9998000000000 ∧ decodeValue 0xFFFF .usc .d100 = 0x40847ACCCCCCCCCD ∧
    decodeValue 0xFFFF .usc .d250 = 0x4070623D70A3D70A := by decide

/-- V-DEC-07, V-DEC-09, V-DEC-10, V-SRC-03. -/
theorem test_sign_magnitude : decodeValue 0xFFFF .sms .d1000 = 0xC040622D0E560419 ∧
    decodeValue 0x8000 .sms .d1000 = 0 ∧ decodeValue 0x8001 .sms .d1000 = 0xBF50624DD2F1A9FC ∧
    decodeValue 0x8005 .sms .d1000 = 0xBF747AE147AE147B := by decide

/-- V-DEC-19, V-DEC-20, V-DEC-21, V-DEC-28: two roundings. -/
theorem test_energy : decodeValue 0x0001 .usc .denergy = 0x3ECA36E2EB1C432D ∧
    decodeValue 0x0007 .usc .denergy = 0x3EF6F0068DB8BAC8 ∧ decodeValue 0xFFFF .usc .denergy = 0x3FCA36C8B4395811 ∧
    decodeValue 0xFFFF .sms .denergy = 0xBFBA36AE7D566CF4 := by decide

/-- V-DEC-23, V-DEC-25, V-DEC-26; V-SRC-04: raw 250 as total and as per-phase power. -/
theorem test_raw_and_power : decodeValue 0xFFFF .raw .d1 = 0x40EFFFE000000000 ∧
    decodeValue 0x8019 .raw .d1 = 0x40E0032000000000 ∧ decodeValue 0x8019 .usc .d1 = 0x40E0032000000000 ∧
    decodeValue 250 .usc .d250 = 0x3FF0000000000000 ∧ decodeValue 250 .usc .d1000 = 0x3FD0000000000000 := by decide

/-! ### One step of each instruction, fetched where the Sequencer fetches it -/

/-- V-ENG-01: the dispatch of `RDREG 0x01` loads `FE 81`. -/
theorem test_step_rdreg : after (step (State.reset.withFetchWord 32 0x10010000))
    (fun t => (t.seq.st, t.seq.tx.toList.take 2, t.seq.rxNeed)) = some (.tx, [0xFE, 0x81], 3) := by decide

/-- V-ENG-04: the dispatch of `WRREG 0x01, 0x1234` loads `FE 01 12 34 47` and keeps the checksum. -/
theorem test_step_wrreg : after (step (State.reset.withFetchWord 32 0x20011234))
    (fun t => (t.seq.st, t.seq.tx.toList, t.seq.chk)) = some (.tx, [0xFE, 0x01, 0x12, 0x34, 0x47], 0x47) := by decide

/-- V-DEC-40: the dispatch of `RDDEC 0x01, USC, D100` loads `FE 81`. -/
theorem test_step_rddec : after (step (State.reset.withFetchWord 32 0x34810000))
    (fun t => (t.seq.st, t.seq.tx.toList.take 2)) = some (.tx, [0xFE, 0x81]) := by decide

/-- V-SRC-03: `DECODE 0x8005, SMS, D1000` completes with -0.005. -/
theorem test_step_decode : after (step (State.reset.withFetchWord 32 0x49008005))
    (fun t => (statWord t.bank, t.bank.raw, t.bank.val)) = some (0x2, 0x8005, 0xBF747AE147AE147B) := by decide

/-- `BEGIN` plays the table from its first entry, whatever the table is. -/
theorem test_step_begin : step (State.reset.withFetchWord 32 0x50000000) =
    .next (playEntry initTable (accept 0x50000000 State.reset)) := by rfl

/-- `CALERR` starts a read of three bytes. -/
theorem test_step_calerr : after (step (State.reset.withFetchWord 32 0x60000000))
    (fun t => (t.seq.st, t.seq.op, t.seq.txLen)) = some (.tx, .read, 2) := by decide

/-- A read request hands over its first byte. -/
theorem test_step_read_request : after (step (State.reset.withFetchWord 16 0xFE81))
    (fun t => (t.seq.st, t.link.txStream, t.seq.txIdx)) = some (.tx, [0xFE], 1) := by decide

/-- A write request hands over its first byte. -/
theorem test_step_write_request : after (step (State.reset.withFetchWord 40 0xFE01123447))
    (fun t => (t.seq.st, t.link.txStream, t.seq.txIdx)) = some (.tx, [0xFE], 1) := by decide

/-- V-SRC-06, good: the response `12 34 46` completes the read with 0x1234. -/
theorem test_step_read_response : after (step (State.reset.withFetchWord 24 0x123446))
    (fun t => (statWord t.bank, t.bank.raw, t.log)) = some (0x2, 0x1234, []) := by decide

/-- V-COD-23: the echo 0x00 of a checksum 0x00 is accepted. -/
theorem test_step_write_ack : after (step (State.reset.withFetchWord 8 0x00))
    (fun t => (statWord t.bank, t.seq.st)) = some (0x2, .idle) := by decide

/-- V-SRC-06, bad: the response `12 34 47` gives one record and the penalty, while the command stays busy. -/
theorem test_step_bad_response : after (step (lastByte 0x10010000 .read 0x01 0 0 0x12 0x34 0x47))
    (fun t => (t.seq.st, t.log, statWord t.bank, t.seq.txnRaw)) =
      some (.penalty, [⟨.read, 0x81, 0x46, 0x47⟩], 0x1, 0xFFFF) := by decide

/-- V-ENG-05: the echo 0x46 of a checksum 0x47. -/
theorem test_step_bad_echo : after (step (lastByte 0x20011234 .write 0x01 0x1234 0 0 0 0x46))
    (fun t => (t.seq.st, t.log, statWord t.bank)) = some (.penalty, [⟨.write, 0x01, 0x47, 0x46⟩], 0x1) := by decide

/-- V-DEC-45: the finish of a failed `RDDEC 0x20, SMS, D1000` decodes the sentinel. -/
theorem test_finish_rddec_failed :
    after (finish { accept 0x39200000 State.reset with seq := { SeqRegs.reset with
        cmd := 0x39200000, st := .penalty, txnOk := false, txnRaw := 0xFFFF } })
      (fun t => (statWord t.bank, t.bank.raw, t.bank.val)) = some (0x6, 0xFFFF, 0xC040622D0E560419) := by decide

/-- V-CAL-01, V-CAL-04, V-CAL-05, V-CAL-06 with their illustrative masks. -/
theorem test_calflags : calFlagsOf 0x0001 0x0002 0x0002 0x0008 0x0002 = 0b0110 ∧
    calFlagsOf 0x0001 0x0002 0x0002 0x0008 0x000B = 0b1111 ∧
    calFlagsOf 0x0001 0x0002 0x0002 0x0008 0x0008 = 0b1000 ∧
    calFlagsOf 0x0001 0x0002 0x0002 0x0008 0xFFFF = 0b1111 := by decide

/-- 43_device_initializer.md R183's example: after entry 0 the frame of entry 1 is loaded; after entry 1 `BEGIN` completes
with `NONE`, though the entry failed. -/
theorem test_nextInit :
    (nextInit [⟨0x70, 0x789A⟩, ⟨0x00, 0x0001⟩] (accept 0x50000000 State.reset)).seq.tx.toList =
      [0xFE, 0x00, 0x00, 0x01, 0x01] ∧
    statWord (nextInit [⟨0x70, 0x789A⟩, ⟨0x00, 0x0001⟩] (setInitIdx 1 (accept 0x50000000 State.reset))).bank = 0x2 := by
  decide

/-- V-ILL-02: an illegal word completes in its dispatch with `ILLEGAL`. -/
theorem test_step_illegal : after (step (State.reset.withFetchWord 32 0x70000000))
    (fun t => (statWord t.bank, t.link.txStream)) = some (0xA, []) := by decide

/-! ### Host bank (95_test_vectors.md section 8) -/

/-- V-HST-03: accept, then a read of `STAT` before the Sequencer steps. -/
theorem test_accept_reads_busy :
    after (hostRead 0x04 4 (accept 0x49008005 State.reset)) (fun t => t.host.readData) = some 0x1 := by decide

/-- V-HST-04 to V-HST-08. -/
theorem test_host_faults : faultOf (hostRead 0x02 4 State.reset) = some .badHostAccess ∧
    faultOf (hostRead 0x04 2 State.reset) = some .badHostAccess ∧
    faultOf (hostWrite 0x04 4 0 State.reset) = some .badHostAccess ∧
    faultOf (hostRead 0x14 4 State.reset) = some .badHostAccess ∧
    faultOf (hostWrite 0x00 4 0 (accept 0x60000000 State.reset)) = some .busyViolation := by decide

/-- V-CAL-04's `STAT` word: `DONE`, `CALERR`, all four flags. -/
theorem test_stat_layout :
    statWord { BankRegs.reset with done := true, calerr := true, calflags := 0b1111 } = 0x00000F12 := by decide

/-- P1, statements 3 and 4, as the assembler writes them; an address of 8 bits is rejected. -/
theorem test_assemble : assemble (.rddec 0x01 .usc .d100) = some (.issue 0x34810000) ∧
    assemble (.ldw .stat) = some (.ldw .stat) ∧ assemble (.rdreg 128) = none := by decide

/-! ### Witnesses: states that meet the hypotheses of the statements -/

/-- A command accepted after reset meets the invariant. -/
theorem accepted_inv (w : Word) (room : Nat) (held : List Byte) (n : Nat) : Inv (accepted w room held n) :=
  ⟨by simp [accepted], rfl, Nat.two_pow_pos _, Nat.zero_le _, fun h => absurd rfl h⟩

/-- A transaction that lacks its last byte meets the invariant. -/
theorem lastByte_inv {w : Word} {i : Instr} {kind : TxnKind} {addr : RegAddr} {data : RegVal} {idx : Nat} (b0 b1 b : Byte)
    (hi : idx ≤ initTable.length) (hd : decode (.command w) = .ok i)
    (ht : txnOfCommand i idx = some (kind, addr, data)) (hr : kind = .read → data = 0) :
    Inv (lastByte w kind addr data idx b0 b1 b) := by
  refine ⟨?_, ?_, ?_, ?_, fun _ => ⟨?_, ⟨i, kind, addr, data, ?_, ?_, ?_⟩, ?_⟩⟩
  · cases kind <;> simp [lastByte]
  · cases kind <;> rfl
  · cases kind <;> exact Nat.two_pow_pos _
  · cases kind <;> exact hi
  · cases kind <;> rfl
  · cases kind <;> exact hd
  · cases kind <;> exact ht
  · cases kind with
    | read => cases hr rfl; exact ⟨rfl, rfl, rfl, rfl, rfl, rfl⟩
    | write => exact ⟨rfl, rfl, rfl, rfl, rfl, rfl⟩
  · cases kind with
    | read => exact ⟨rfl, (by decide : (3 - 1 : BitVec 2).toNat < (3 : BitVec 2).toNat)⟩
    | write => exact ⟨rfl, (by decide : (1 - 1 : BitVec 2).toNat < (1 : BitVec 2).toNat)⟩

/-- A read of register 1 in the penalty meets the invariant. -/
def inPenalty : State :=
  let t := startTxn .read 0x01 0 (accept 0x10010000 State.reset)
  { t with
    seq := { t.seq with st := .penalty, txIdx := 2, rx := #v[0x12, 0x34, 0x47], rxCnt := 3, txnRaw := 0xFFFF }
    pending := [.sequencer] }

theorem inPenalty_inv : Inv inPenalty :=
  ⟨by decide, rfl, Nat.two_pow_pos _, Nat.zero_le _,
    fun _ => ⟨rfl, ⟨.rdreg 0x01, .read, 0x01, 0, by decide, rfl, ⟨rfl, rfl, rfl, rfl, rfl, rfl⟩⟩, by
      exact ⟨rfl, rfl, rfl, fun _ => rfl⟩⟩⟩

/-- An entry of `BEGIN` in the penalty, for a table that has one. -/
theorem witness_PenaltyEndsWithoutRetry_begin {e : InitEntry} {k : Nat} (he : initTable[k]? = some e) :
    ∃ s, Inv s ∧ s.seq.st = .penalty ∧ s.seq.cmd = 0x50000000 ∧ s.seq.initIdx = k := by
  let t := startTxn .write e.addr e.data (accept 0x50000000 (setInitIdx k State.reset))
  refine ⟨{ t with seq := { t.seq with st := .penalty, txIdx := 5, rxCnt := 1 } }, ?_, rfl, rfl, rfl⟩
  refine ⟨by simp [t], rfl, Nat.two_pow_pos _, ?_, fun _ => ⟨rfl, ⟨.beginInit, .write, e.addr, e.data,
    (by decide : decode (.command 0x50000000) = .ok .beginInit), ?_,
    ⟨rfl, rfl, rfl, rfl, rfl, rfl⟩⟩, ⟨rfl, rfl, rfl, fun h => by cases h⟩⟩⟩
  · exact Nat.le_of_lt (List.getElem?_eq_some_iff.mp he).1
  · simp [txnOfCommand, t, he]

/-- A read of register 1 in `TX`, one byte from its end. -/
def inTx : State :=
  let t := startTxn .read 0x01 0 (accept 0x10010000 State.reset)
  { t with
    seq := { t.seq with txIdx := 1 }
    link := { txRoom := 1, txStream := [0xFE], rxHeld := [] }
    pending := [.sequencer] }

theorem inTx_inv : Inv inTx :=
  ⟨by decide, rfl, Nat.two_pow_pos _, Nat.zero_le _,
    fun _ => ⟨rfl, ⟨.rdreg 0x01, .read, 0x01, 0, by decide, rfl, ⟨rfl, rfl, rfl, rfl, rfl, rfl⟩⟩, by
      exact ⟨by decide, rfl⟩⟩⟩

theorem witness_AcceptLatchesTheWordOrFaults :
    (∃ s : State, s.pending = [.hostAccess (.write 0x00 4 0x10010000), .sequencer] ∧ s.bank.busy = true) ∧
    (∃ s : State, s.pending = [.hostAccess (.write 0x00 4 0x10010000), .sequencer] ∧ s.bank.busy = false ∧
      s.seq.st = .idle) :=
  ⟨⟨{ accepted 0x10010000 0 [] 0 with pending := [.hostAccess (.write 0x00 4 0x10010000), .sequencer] }, rfl, rfl⟩,
    ⟨{ State.reset with pending := [.hostAccess (.write 0x00 4 0x10010000), .sequencer] }, rfl, rfl, rfl⟩⟩

theorem witness_HostAccessesFaultExactlyOutsideTheDuties :
    hostKeepsDuties (.read 0x10 4) State.reset = true ∧ hostKeepsDuties (.read 0x14 4) State.reset = false ∧
    hostKeepsDuties (.write 0x00 4 0) State.reset = true ∧
    hostKeepsDuties (.write 0x00 4 0) (accepted 0 0 [] 0) = false ∧
    hostKeepsDuties (.write 0x04 4 0) State.reset = false := by decide

theorem witness_BankWordsReadByTheirLayout : ∀ off ∈ [0x00, 0x04, 0x08, 0x0C, 0x10], off % 4 = 0 ∧ off ≤ 0x13 := by
  decide

theorem witness_HostProgramIssuesPollsAndObserves :
    (∃ s : State, s.host.polling = true) ∧
    (∃ s : State, s.host.polling = false ∧ s.host.program = [.issue 0x10010000] ∧ s.bank.busy = false) ∧
    (∃ s : State, s.host.polling = false ∧ s.host.program = [.ldw .valHi]) :=
  ⟨⟨{ State.reset with host := { State.reset.host with polling := true } }, rfl⟩,
    ⟨{ State.reset with host := { State.reset.host with program := [.issue 0x10010000] } }, rfl, rfl, rfl⟩,
    ⟨{ State.reset with host := { State.reset.host with program := [.ldw .valHi] } }, rfl, rfl⟩⟩

theorem witness_DecodeOfEncodeIsTheInstruction :
    ∀ i ∈ [Instr.rdreg 0x7F, .wrreg 0x7F 0xFFFF, .rddec 0x7F .raw .d1, .decode 0xFFFF .sms .denergy, .beginInit, .calerr,
      .frameRdReq 0x7E, .frameWrReq 0x7F 0xFFFF, .frameRdResp 0xFF 0xFF 0xFE, .frameWrAck 0x00], i.wf = true := by decide

theorem witness_EncodeOfDecodeIsTheCode :
    decode (.command 0x3AFF0000) = .ok (.rddec 0x7F .usc .denergy) ∧
    decode (.request [0xFE, 0xFE]) = .ok (.frameRdReq 0x7E) := by decide

theorem witness_LegalityTestIsTheDecodersAcceptance :
    (∃ s : State, s.seq.st = .idle ∧ s.bank.busy = true ∧ s.seq.cmd = 0x307F0000) ∧
    legalWord 0x307F0000 = true ∧ legalWord 0x327F0000 = false :=
  ⟨⟨accepted 0x307F0000 0 [] 0, rfl, rfl, rfl⟩, by decide, by decide⟩

theorem witness_IllegalWordsCompleteWithIllegal :
    (∃ s : State, s.seq.st = .idle ∧ s.bank.busy = true ∧ s.seq.cmd = commandWord 0x7 0 0 0 0) ∧
    (∃ s : State, s.seq.st = .idle ∧ s.bank.busy = true ∧ s.seq.cmd = commandWord 0x3 6 1 1 0) ∧
    (∃ s : State, s.seq.st = .idle ∧ s.bank.busy = true ∧ s.seq.cmd = commandWord 0x2 1 0 1 0) ∧
    (∃ s : State, s.seq.st = .idle ∧ s.bank.busy = true ∧ s.seq.cmd = commandWord 0x4 0 0 1 0) ∧
    (∃ s : State, s.seq.st = .idle ∧ s.bank.busy = true ∧ s.seq.cmd = commandWord 0x1 0 0 1 1) :=
  ⟨⟨accepted _ 0 [] 0, rfl, rfl, rfl⟩, ⟨accepted _ 0 [] 0, rfl, rfl, rfl⟩, ⟨accepted _ 0 [] 0, rfl, rfl, rfl⟩,
    ⟨accepted _ 0 [] 0, rfl, rfl, rfl⟩, ⟨accepted _ 0 [] 0, rfl, rfl, rfl⟩⟩

theorem witness_RequestStreamsAreReadBackByLength :
    ∀ i ∈ [Instr.frameRdReq 0x7E, .frameWrReq 0x7E 0xFEFE],
      (∃ addr, i = .frameRdReq addr) ∨ ∃ addr data, i = .frameWrReq addr data := by
  intro i hi
  simp only [List.mem_cons, List.not_mem_nil, or_false] at hi
  obtain rfl | rfl := hi
  · exact .inl ⟨_, rfl⟩
  · exact .inr ⟨_, _, rfl⟩

theorem witness_StepRunsTheDecodedInstruction :
    (∃ s : State, s.pending = [.sequencer] ∧ s.seq.st = .idle ∧ s.bank.busy = true ∧
      decode (.command s.seq.cmd) = .ok .calerr) ∧
    (∃ s : State, s.pending = [.sequencer] ∧ s.seq.st = .tx ∧
      decode (.request (s.seq.tx.toList.take s.seq.txLen.toNat)) = .ok (.frameRdReq 0x01)) ∧
    (∃ s : State, s.pending = [.sequencer] ∧ s.seq.st = .rx ∧ s.link.rxHeld = [0x46] ∧ s.seq.rxCnt ≠ 3 ∧
      s.seq.rxCnt + 1 = s.seq.rxNeed ∧ s.seq.op = .read ∧
      decode (.readResponse (s.seq.rx.setIfInBounds s.seq.rxCnt.toNat 0x46).toList) =
        .ok (.frameRdResp 0x12 0x34 0x46)) ∧
    (∃ s : State, s.pending = [.sequencer] ∧ s.seq.st = .rx ∧ s.link.rxHeld = [0x47] ∧ s.seq.rxCnt ≠ 3 ∧
      s.seq.rxCnt + 1 = s.seq.rxNeed ∧ s.seq.op = .write ∧
      decode (.writeAck [(s.seq.rx.setIfInBounds s.seq.rxCnt.toNat 0x47)[0]]) = .ok (.frameWrAck 0x47)) :=
  ⟨⟨accepted 0x60000000 0 [] 1, rfl, rfl, rfl, by decide⟩, ⟨inTx, rfl, rfl, by decide⟩,
    ⟨lastByte 0x10010000 .read 0x01 0 0 0x12 0x34 0x46, rfl, rfl, rfl, by decide, by decide, rfl, by decide⟩,
    ⟨lastByte 0x20011234 .write 0x01 0x1234 0 0 0 0x47, rfl, rfl, rfl, by decide, by decide, rfl, by decide⟩⟩

theorem witness_UnscheduledStepIsTheFreeEvent : State.reset.pending = [] := rfl

/-- A changed byte for each clause, and what the clause says of it: each byte of a response and each covered byte of a
write changed alone, and a change of two bytes that does not keep the sum (40_frame_codec.md R120). -/
theorem witness_ChecksumDetectsAChangeExactlyWhenTheSumChanges :
    ((0x13 : Byte) ≠ 0x12 ∧ decodeRead 0x13 0x34 0x46 = none) ∧ ((0x00 : Byte) ≠ 0x34 ∧ decodeRead 0x12 0x00 0x46 = none) ∧
    ((0xFF : Byte) ≠ 0x12 + 0x34 ∧ decodeRead 0x12 0x34 0xFF = none) ∧
    ((0x02 : Byte) ≠ 0x01 ∧ writeChecksum 0x02 (wordOfBytes 0x12 0x34) ≠ writeChecksum 0x01 (wordOfBytes 0x12 0x34)) ∧
    ((0x13 : Byte) ≠ 0x12 ∧ writeChecksum 0x01 (wordOfBytes 0x13 0x34) ≠ writeChecksum 0x01 (wordOfBytes 0x12 0x34)) ∧
    ((0x35 : Byte) ≠ 0x34 ∧ writeChecksum 0x01 (wordOfBytes 0x12 0x35) ≠ writeChecksum 0x01 (wordOfBytes 0x12 0x34)) ∧
    decodeRead 0x13 0x35 0x46 = none ∧ decodeRead 0x13 0x35 0x48 = some 0x1335 := by decide

theorem witness_ReadRequestSendsItsTwoBytes :
    (∃ s : State, 0 < s.link.txRoom ∧ s.seq.txIdx = 0) ∧ (∃ s : State, 0 < s.link.txRoom ∧ s.seq.txIdx = 1) :=
  ⟨⟨accepted 0 1 [] 0, by decide, rfl⟩, ⟨inTx, by decide, rfl⟩⟩

theorem witness_WriteRequestSendsItsFiveBytes : ∀ k : Fin 5, ∃ s : State, 0 < s.link.txRoom ∧ s.seq.txIdx.toNat = k.val := by
  intro k
  refine ⟨{ accepted 0 1 [] 0 with seq := { SeqRegs.reset with txIdx := BitVec.ofNat 3 k.val } }, Nat.one_pos, ?_⟩
  revert k
  decide

theorem witness_ReadResponseCompletesOrPenalizes :
    (∃ s : State, (0xFE : Byte) = 0xFF + 0xFF ∧ s.seq.cmd = commandWord 0x1 0 0 0x7F 0) ∧
    (0x47 : Byte) ≠ 0x12 + 0x34 :=
  ⟨⟨accepted (commandWord 0x1 0 0 0x7F 0) 0 [] 0, by decide, rfl⟩, by decide⟩

theorem witness_WriteAckCompletesOrPenalizes :
    (∃ s : State, (0x47 : Byte) = s.seq.chk ∧ s.seq.cmd = commandWord 0x2 0 0 0x01 0x1234) ∧
    (∃ s : State, (0x46 : Byte) ≠ s.seq.chk) :=
  ⟨⟨lastByte (commandWord 0x2 0 0 0x01 0x1234) .write 0x01 0x1234 0 0 0 0, by decide, rfl⟩, ⟨State.reset, by decide⟩⟩

theorem witness_RdregReturnsTheRegisterRead : ∃ s : State, s.seq.cmd = commandWord 0x1 0 0 0x01 0 ∧ 2 ≤ s.link.txRoom ∧
    s.link.rxHeld = 0x12 :: 0x34 :: (0x12 + 0x34) :: [] ∧ Scheduled 6 [] s :=
  ⟨accepted (commandWord 0x1 0 0 0x01 0) 2 [0x12, 0x34, 0x46] 6, rfl, by decide, by decide, rfl⟩

theorem witness_RdregReportsAChecksumMismatch : ∃ s : State, s.seq.cmd = commandWord 0x1 0 0 0x01 0 ∧ 2 ≤ s.link.txRoom ∧
    s.link.rxHeld = 0x12 :: 0x34 :: 0x47 :: [] ∧ (0x47 : Byte) ≠ 0x12 + 0x34 ∧ Scheduled 7 [] s :=
  ⟨accepted (commandWord 0x1 0 0 0x01 0) 2 [0x12, 0x34, 0x47] 7, rfl, by decide, rfl, by decide, rfl⟩

/-- Both outcomes: the echo 0x47 is the checksum sent (V-ENG-04), 0x46 is not (V-ENG-05). -/
theorem witness_WrregSendsTheValueAndChecksTheEcho : ∀ echo ∈ [(0x47 : Byte), 0x46], ∃ s : State,
    s.seq.cmd = commandWord 0x2 0 0 0x01 0x1234 ∧ 5 ≤ s.link.txRoom ∧ s.link.rxHeld = [echo] ∧
    Scheduled (if echo = hiByte 0x1234 + loByte 0x1234 + BitVec.setWidth 8 (0x01 : RegAddr) then 7 else 8) [] s := by
  intro echo _
  exact ⟨accepted (commandWord 0x2 0 0 0x01 0x1234) 5 [echo] _, rfl, le_refl _, rfl, (List.append_nil _).symm⟩

theorem witness_RddecReadsAndDecodes : ∀ chk ∈ [(0x46 : Byte), 0x47], ∃ s : State,
    s.seq.cmd = commandWord 0x3 (codeOfDiv .d100) (codeOfTag .usc) 0x01 0 ∧ 2 ≤ s.link.txRoom ∧
    s.link.rxHeld = [0x12, 0x34, chk] ∧ Scheduled (if chk = 0x12 + 0x34 then 6 else 7) [] s := by
  intro chk _
  exact ⟨accepted (commandWord 0x3 (codeOfDiv .d100) (codeOfTag .usc) 0x01 0) 2 [0x12, 0x34, chk] _, rfl, le_refl _, rfl,
    (List.append_nil _).symm⟩

theorem witness_CalerrTestsTheFourMasks : ∀ chk ∈ [(0x02 : Byte), 0x00], ∃ s : State,
    s.seq.cmd = 0x60000000 ∧ 2 ≤ s.link.txRoom ∧ s.link.rxHeld = [0x00, 0x02, chk] ∧
    Scheduled (if chk = 0x00 + 0x02 then 6 else 7) [] s := by
  intro chk _
  exact ⟨accepted 0x60000000 2 [0x00, 0x02, chk] _, rfl, le_refl _, rfl, (List.append_nil _).symm⟩

theorem witness_BeginPlaysTheWholeTableWhateverTheEchoes : ∃ (s : State) (echoes : List Byte),
    s.seq.cmd = 0x50000000 ∧ echoes.length = initTable.length ∧ 5 * initTable.length ≤ s.link.txRoom ∧
    s.link.rxHeld = echoes ++ [] ∧ Scheduled (beginSteps initTable echoes) [] s :=
  ⟨accepted 0x50000000 (5 * initTable.length) (List.replicate initTable.length 0 ++ []) _,
    List.replicate initTable.length 0, rfl, List.length_replicate, le_refl _, rfl, (List.append_nil _).symm⟩

/-- P4: a valid 0xFFFF and a failed read of the energy register, by `RDREG` and by `RDDEC`. -/
theorem witness_FailureSentinelIsToldApartOnlyByErr :
    ∀ w ∈ [commandWord 0x1 0 0 0x7F 0, commandWord 0x3 (codeOfDiv .denergy) (codeOfTag .usc) 0x7F 0],
    ∃ s s' u u' : State,
      (s.seq.cmd = commandWord 0x1 0 0 0x7F 0 ∨
        s.seq.cmd = commandWord 0x3 (codeOfDiv .denergy) (codeOfTag .usc) 0x7F 0) ∧
      s.seq.cmd = w ∧ s'.seq.cmd = s.seq.cmd ∧ s'.bank = s.bank ∧
      s.seq.st = .idle ∧ s'.seq.st = .idle ∧ s.bank.busy = true ∧ pairLegal .usc .denergy = true ∧
      2 ≤ s.link.txRoom ∧ 2 ≤ s'.link.txRoom ∧
      s.link.rxHeld = 0xFF :: 0xFF :: 0xFE :: [] ∧ s'.link.rxHeld = 0xFF :: 0xFF :: 0x00 :: [] ∧
      (0x00 : Byte) ≠ 0xFF + 0xFF ∧ Scheduled 7 [] s ∧ Scheduled 8 [] s' ∧ RunsTo 7 s u ∧ RunsTo 8 s' u' := by
  intro w hw
  simp only [List.mem_cons, List.not_mem_nil, or_false] at hw
  obtain rfl | rfl := hw
  · exact ⟨accepted (commandWord 0x1 0 0 0x7F 0) 2 [0xFF, 0xFF, 0xFE] 7,
      accepted (commandWord 0x1 0 0 0x7F 0) 2 [0xFF, 0xFF, 0x00] 8, _, _, .inl rfl, rfl, rfl, rfl, rfl, rfl, rfl, rfl,
      by decide, by decide, rfl, rfl, by decide, rfl, rfl, rfl, rfl⟩
  · exact ⟨accepted (commandWord 0x3 (codeOfDiv .denergy) (codeOfTag .usc) 0x7F 0) 2 [0xFF, 0xFF, 0xFE] 7,
      accepted (commandWord 0x3 (codeOfDiv .denergy) (codeOfTag .usc) 0x7F 0) 2 [0xFF, 0xFF, 0x00] 8, _, _, .inr rfl,
      rfl, rfl, rfl, rfl, rfl, rfl, rfl, by decide, by decide, rfl, rfl, by decide, rfl, rfl, rfl, rfl⟩

theorem witness_SignMagnitudeIsNotTwosComplement :
    (0x7FFF : RegVal).getLsbD 15 = false ∧ (0x8000 : RegVal).getLsbD 15 = true ∧
    (0xFFFF : RegVal).getLsbD 15 = true := by decide

theorem witness_IntegersConvertExactly : (65535 : Int).natAbs ≤ 65535 ∧ (-65535 : Int).natAbs ≤ 65535 := by decide

theorem witness_DivisionIsCorrectlyRounded :
    f64Finite (f64OfInt 65535) = true ∧ f64Finite (f64OfInt (-1)) = true ∧ 0 < 3200 := by decide

theorem witness_DecodedValuesAreNormalOrPlusZero : numerator 0x8000 .sms = 0 ∧ numerator 0x8001 .sms ≠ 0 := by decide

theorem witness_EveryStepKeepsTheInvariant : ∃ t, Inv inTx ∧ step inTx = .next t := ⟨_, inTx_inv, rfl⟩

theorem witness_OnlyTheHostsBreachesFault :
    (Inv inTx) ∧ Inv { State.reset with pending := [.hostAccess (.write 0x08 4 0)] } ∧
    step { State.reset with pending := [.hostAccess (.write 0x08 4 0)] } = .fault .badHostAccess :=
  ⟨inTx_inv, ⟨by decide, rfl, Nat.two_pow_pos _, Nat.zero_le _, fun h => absurd rfl h⟩, rfl⟩

/-- A completing step of each kind of command but `BEGIN`: the reads, the write, `DECODE`, `CALERR`, an illegal word. -/
theorem witness_EachCommandWritesOnlyItsResults :
    (∃ s t : State, Inv s ∧ (nextEvent s).1 = .sequencer ∧ s.bank.busy = true ∧ step s = .next t ∧ t.bank.busy = false ∧
      decode (.command s.seq.cmd) = .ok (.rdreg 0x01)) ∧
    (∃ s t : State, Inv s ∧ (nextEvent s).1 = .sequencer ∧ s.bank.busy = true ∧ step s = .next t ∧ t.bank.busy = false ∧
      decode (.command s.seq.cmd) = .ok (.wrreg 0x01 0x1234)) ∧
    (∃ s t : State, Inv s ∧ (nextEvent s).1 = .sequencer ∧ s.bank.busy = true ∧ step s = .next t ∧ t.bank.busy = false ∧
      decode (.command s.seq.cmd) = .ok (.rddec 0x01 .usc .d100)) ∧
    (∃ s t : State, Inv s ∧ (nextEvent s).1 = .sequencer ∧ s.bank.busy = true ∧ step s = .next t ∧ t.bank.busy = false ∧
      decode (.command s.seq.cmd) = .ok (.decode 0x8005 .sms .d1000)) ∧
    (∃ s t : State, Inv s ∧ (nextEvent s).1 = .sequencer ∧ s.bank.busy = true ∧ step s = .next t ∧ t.bank.busy = false ∧
      decode (.command s.seq.cmd) = .ok .calerr) ∧
    (∃ s t : State, Inv s ∧ (nextEvent s).1 = .sequencer ∧ s.bank.busy = true ∧ step s = .next t ∧ t.bank.busy = false ∧
      decode (.command s.seq.cmd) = .error .unassignedOpcode) :=
  ⟨⟨lastByte 0x10010000 .read 0x01 0 0 0x12 0x34 0x46, _, lastByte_inv (i := .rdreg 0x01) _ _ _ (Nat.zero_le _) (by decide) rfl (fun _ => rfl),
      rfl, rfl, rfl, rfl, by decide⟩,
    ⟨lastByte 0x20011234 .write 0x01 0x1234 0 0 0 0x47, _,
      lastByte_inv (i := .wrreg 0x01 0x1234) _ _ _ (Nat.zero_le _) (by decide) rfl (fun h => by cases h), rfl, rfl, rfl, rfl, by decide⟩,
    ⟨lastByte 0x34810000 .read 0x01 0 0 0x12 0x34 0x46, _,
      lastByte_inv (i := .rddec 0x01 .usc .d100) _ _ _ (Nat.zero_le _) (by decide) rfl (fun _ => rfl), rfl, rfl, rfl, rfl, by decide⟩,
    ⟨accepted 0x49008005 0 [] 1, _, accepted_inv _ _ _ _, rfl, rfl, rfl, rfl, by decide⟩,
    ⟨lastByte 0x60000000 .read Config.sysStatusAddr 0 0 0x00 0x02 0x02, _,
      lastByte_inv (i := .calerr) _ _ _ (Nat.zero_le _) (by decide) rfl (fun _ => rfl), rfl, rfl, rfl, rfl, by decide⟩,
    ⟨accepted 0x70000000 0 [] 1, _, accepted_inv _ _ _ _, rfl, rfl, rfl, rfl, by decide⟩⟩

/-- The step of the last byte of a write runs the acknowledgment. -/
theorem lastByte_step_write (w : Word) (addr : RegAddr) (data : RegVal) (idx : Nat) (b0 b1 b : Byte) :
    step (lastByte w .write addr data idx b0 b1 b) =
      execFrameWrAck b (rxTake b [] { lastByte w .write addr data idx b0 b1 b with pending := [] }) := by
  change seqReceive { lastByte w .write addr data idx b0 b1 b with pending := [] } = _
  rw [seqReceive]
  change (if (1 - 1 : BitVec 2) = 3 then _ else if (1 - 1 + 1 : BitVec 2) = 1 then _ else _ : Result) = _
  rw [if_neg (by decide), if_pos (by decide), validate_eq]
  have h0 : (rxTake b [] { lastByte w .write addr data idx b0 b1 b with pending := [] }).seq.rx[0] = b := by
    simp [lastByte, rxTake]
  exact congrArg (fun x => execFrameWrAck x _) h0

/-- A completing step of `BEGIN`: its dispatch if the table is empty, else the echo of its last entry. -/
theorem witness_EachCommandWritesOnlyItsResults_begin : ∃ s t : State, Inv s ∧ (nextEvent s).1 = .sequencer ∧
    s.bank.busy = true ∧ step s = .next t ∧ t.bank.busy = false ∧ decode (.command s.seq.cmd) = .ok .beginInit := by
  cases h : initTable.getLast? with
  | none =>
    have h0 : initTable = [] := List.getLast?_eq_none_iff.mp h
    refine ⟨accepted 0x50000000 0 [] 1, playEntry initTable (accepted 0x50000000 0 [] 0), accepted_inv _ _ _ _, rfl, rfl,
      rfl, ?_, by decide⟩
    rw [h0]
    rfl
  | some e =>
    have hlen : 0 < initTable.length := List.length_pos_iff.mpr fun h0 => by simp [h0] at h
    have he : initTable[initTable.length - 1]? = some e := by rw [← List.getLast?_eq_getElem?, h]
    refine ⟨lastByte 0x50000000 .write e.addr e.data (initTable.length - 1) 0 0
        (writeChecksum (addressByte e.addr .write) e.data), ?t,
      lastByte_inv (i := .beginInit) _ _ _ (by omega) (by decide) (by simp [txnOfCommand, he]) (fun h => by cases h), rfl,
      rfl, ?step, ?busy, (by decide : decode (.command 0x50000000) = .ok .beginInit)⟩
    case t =>
      exact nextInit initTable (txnWriteOk (rxTake (writeChecksum (addressByte e.addr .write) e.data) []
        { lastByte 0x50000000 .write e.addr e.data (initTable.length - 1) 0 0
          (writeChecksum (addressByte e.addr .write) e.data) with pending := [] }))
    case step =>
      rw [lastByte_step_write, execFrameWrAck]
      refine (if_pos ?_).trans ?_
      · exact beq_self_eq_true (writeChecksum (addressByte e.addr .write) e.data)
      · rw [finish, if_neg (by exact (by decide : opcOf 0x50000000 ≠ 0x1)),
          if_neg (by exact (by decide : opcOf 0x50000000 ≠ 0x2)),
          if_neg (by exact (by decide : opcOf 0x50000000 ≠ 0x3)),
          if_pos (by exact (by decide : opcOf 0x50000000 = 0x5))]
    case busy =>
      unfold nextInit playEntry
      have : initTable[initTable.length - 1 + 1]? = none := by simp; omega
      change (match initTable[initTable.length - 1 + 1]? with | some e => _ | none => _ : State).bank.busy = false
      rw [this]
      rfl

theorem witness_SettleBeginsWhenTheRequestIsFullySent : ∃ t, Inv inTx ∧ step inTx = .next t ∧ inTx.seq.st ≠ .settle ∧
    t.seq.st = .settle ∧ inTx.seq.st = .tx :=
  ⟨_, inTx_inv, rfl, by decide, rfl, rfl⟩

theorem witness_PenaltyEndsWithoutRetry : Inv inPenalty ∧ inPenalty.seq.st = .penalty ∧ inPenalty.seq.cmd ≠ 0x50000000 :=
  ⟨inPenalty_inv, rfl, by decide⟩

theorem witness_BusyCommandCompletesWhenTheLinkServes : ∃ s : State, Inv s ∧ s.bank.busy = true ∧
    Scheduled (8 * (initTable.length + 1) + 1) [] s ∧ 8 * (initTable.length + 1) + 1 ≤ s.link.txRoom ∧
    8 * (initTable.length + 1) + 1 ≤ s.link.rxHeld.length :=
  ⟨accepted 0x50000000 (8 * (initTable.length + 1) + 1) (List.replicate (8 * (initTable.length + 1) + 1) 0)
      (8 * (initTable.length + 1) + 1), accepted_inv _ _ _ _, rfl, (List.append_nil _).symm, le_refl _,
    Nat.le_of_eq List.length_replicate.symm⟩

/-- A step of each kind: an accept, a completion, a reset, and one that leaves the bank alone. -/
theorem witness_BankChangesOnlyByAcceptCompletionOrReset :
    (∃ t, step { State.reset with pending := [.hostAccess (.write 0x00 4 0)] } = .next t) ∧
    (∃ t, step (accepted 0x49008005 0 [] 1) = .next t) ∧ (∃ t, step { inTx with pending := [.reset] } = .next t) ∧
    (∃ t, step inTx = .next t) :=
  ⟨⟨_, rfl⟩, ⟨_, rfl⟩, ⟨_, rfl⟩, ⟨_, rfl⟩⟩

theorem witness_ResultsStandUntilTheNextAccept : ∃ s t : State, Inv s ∧ s.bank.busy = false ∧ step s = .next t ∧
    t.bank.busy = false ∧ (nextEvent s).1 ≠ .reset :=
  ⟨{ State.reset with pending := [.linkAccepts] }, _,
    ⟨by decide, rfl, Nat.two_pow_pos _, Nat.zero_le _, fun h => absurd rfl h⟩, rfl, rfl, rfl, by decide⟩

theorem witness_CommandInFlightIsNotDisturbed : ∃ s t : State, step s = .next t ∧ s.bank.busy = true ∧
    (nextEvent s).1 ≠ .sequencer ∧ (nextEvent s).1 ≠ .reset :=
  ⟨{ inTx with pending := [.linkDelivers 0x46] }, _, rfl, rfl, by decide, by decide⟩

theorem witness_OnlyTheTransmitStateSends : ∃ t, step inTx = .next t ∧ t.link.txStream = [0xFE, 0x81] := ⟨_, rfl, rfl⟩

theorem witness_ReceivedBytesAreNeverFlushed :
    (∃ t, step { inTx with pending := [.linkDelivers 0x46] } = .next t ∧ t.link.rxHeld = [0x46]) ∧
    (∃ t, step (lastByte 0x10010000 .read 0x01 0 0 0x12 0x34 0x46) = .next t ∧ t.link.rxHeld = []) :=
  ⟨⟨_, rfl, rfl⟩, ⟨_, rfl, rfl⟩⟩

theorem witness_LogGrowsExactlyByMismatches :
    (∃ t, step (lastByte 0x10010000 .read 0x01 0 0 0x12 0x34 0x47) = .next t ∧ t.log = [⟨.read, 0x81, 0x46, 0x47⟩]) ∧
    (∃ t, step (lastByte 0x20011234 .write 0x01 0x1234 0 0 0 0x46) = .next t ∧ t.log = [⟨.write, 0x01, 0x47, 0x46⟩]) :=
  ⟨⟨_, rfl, rfl⟩, ⟨_, rfl, rfl⟩⟩

/-- The hypotheses of the clause that every mismatch is recorded, for a read and for a write. -/
theorem witness_LogGrowsExactlyByMismatches_recorded :
    (let s := lastByte 0x10010000 .read 0x01 0 0 0x12 0x34 0x47
     (nextEvent s).1 = .sequencer ∧ s.seq.st = .rx ∧ s.link.rxHeld = [0x47] ∧ s.seq.rxCnt ≠ 3 ∧
      s.seq.rxCnt + 1 = s.seq.rxNeed ∧ s.seq.op = .read ∧
      (s.seq.rx.setIfInBounds s.seq.rxCnt.toNat 0x47)[2] ≠
        (s.seq.rx.setIfInBounds s.seq.rxCnt.toNat 0x47)[0] + (s.seq.rx.setIfInBounds s.seq.rxCnt.toNat 0x47)[1]) ∧
    (let s := lastByte 0x20011234 .write 0x01 0x1234 0 0 0 0x46
     (nextEvent s).1 = .sequencer ∧ s.seq.st = .rx ∧ s.link.rxHeld = [0x46] ∧ s.seq.rxCnt ≠ 3 ∧
      s.seq.rxCnt + 1 = s.seq.rxNeed ∧ s.seq.op = .write ∧
      (s.seq.rx.setIfInBounds s.seq.rxCnt.toNat 0x46)[0] ≠ s.seq.chk) := by decide

theorem witness_SequencerWaitsForTheLink :
    (∃ s : State, s.seq.st = .tx ∧ s.link.txRoom = 0) ∧ (∃ s : State, s.seq.st = .rx ∧ s.link.rxHeld = []) ∧
    (State.reset.seq.st = .idle ∧ State.reset.bank.busy = false) :=
  ⟨⟨startTxn .read 0x01 0 State.reset, rfl, rfl⟩, ⟨seqSettle State.reset, rfl, rfl⟩, rfl, rfl⟩

end Sys2Proof.Tests
end

/-! PROOFS. Packed binary64 patterns read back their fields and their value, and an integer below 2 to the 53 in magnitude is
converted exactly (00_scope.md R10). -/

namespace Sys2Proof.Machine

section Pack

variable (sign : Bool) (m : Nat)

/-- The bits of a packed pattern: the sign above the 63 magnitude bits. -/
theorem f64Pack_getLsbD (i : Nat) :
    (f64Pack sign m).getLsbD i = if i < 63 then m.testBit i else (BitVec.ofBool sign).getLsbD (i - 63) := by
  change BitVec.getLsbD (w := 1 + 63) (BitVec.ofBool sign ++ BitVec.ofNat 63 m) i = _
  rw [BitVec.getLsbD_append, BitVec.getLsbD_ofNat]
  by_cases hi : i < 63 <;> simp [hi]

/-- A field within the magnitude bits. -/
theorem extractLsb'_f64Pack_toNat {start len : Nat} (hfield : start + len ≤ 63) :
    ((f64Pack sign m).extractLsb' start len).toNat = m / 2 ^ start % 2 ^ len := by
  have hbits : (f64Pack sign m).extractLsb' start len = BitVec.ofNat len (m / 2 ^ start) := by
    apply BitVec.eq_of_getLsbD_eq
    intro i hi
    rw [BitVec.getLsbD_extractLsb', f64Pack_getLsbD, BitVec.getLsbD_ofNat, Nat.testBit_div_two_pow,
      if_pos (show start + i < 63 by omega), Nat.add_comm]
  rw [hbits, BitVec.toNat_ofNat]

@[simp] theorem f64Sign_f64Pack : f64Sign (f64Pack sign m) = sign := by
  rw [f64Sign, f64Pack_getLsbD]
  simp

@[simp] theorem f64Exponent_f64Pack : f64Exponent (f64Pack sign m) = m / 2 ^ 52 % 2 ^ 11 :=
  extractLsb'_f64Pack_toNat sign m (by decide)

@[simp] theorem f64Fraction_f64Pack : f64Fraction (f64Pack sign m) = m % 2 ^ 52 := by
  rw [f64Fraction, extractLsb'_f64Pack_toNat sign m (by decide), pow_zero, Nat.div_one]

end Pack

/-- Magnitude bits below those of the infinity are finite. -/
theorem f64Finite_f64Pack (sign : Bool) {m : Nat} (hm : m < 2047 * 2 ^ 52) : f64Finite (f64Pack sign m) = true := by
  simp only [f64Finite, f64Exponent_f64Pack, decide_eq_true_eq]
  omega

/-- A significand `q` added to an exponent field `e` counts in units of `2 ^ (e - 1074)`: a subnormal one only at `e = 0`, a
normal one by its leading bit, and `2 ^ 53` by its carry into the exponent field. -/
theorem f64Value_f64Pack (sign : Bool) {e q : Nat} (hq : q ≤ 2 ^ 53) (hnormal : e = 0 ∨ 2 ^ 52 ≤ q)
    (hfinite : e * 2 ^ 52 + q < 2047 * 2 ^ 52) :
    f64Value (f64Pack sign (e * 2 ^ 52 + q)) = (if sign then -1 else 1) * (q : ℚ) * 2 ^ ((e : Int) - 1074) := by
  simp only [f64Value, f64Significand, f64Scale, f64Sign_f64Pack, f64Exponent_f64Pack, f64Fraction_f64Pack]
  rcases Nat.lt_or_ge q (2 ^ 52) with hsub | hge
  · obtain rfl : e = 0 := by omega
    have hexp : (0 * 2 ^ 52 + q) / 2 ^ 52 % 2 ^ 11 = 0 := by omega
    have hfrac : (0 * 2 ^ 52 + q) % 2 ^ 52 = q := by omega
    simp only [hexp, hfrac, if_true, Nat.cast_zero, zero_sub]
  · rcases Nat.lt_or_eq_of_le hq with hlt | rfl
    · have hexp : (e * 2 ^ 52 + q) / 2 ^ 52 % 2 ^ 11 = e + 1 := by omega
      have hsig : 2 ^ 52 + (e * 2 ^ 52 + q) % 2 ^ 52 = q := by omega
      have hscale : ((e + 1 : Nat) : Int) - 1075 = e - 1074 := by omega
      simp only [hexp, hsig, hscale, Nat.succ_ne_zero, if_false]
    · have hexp : (e * 2 ^ 52 + 2 ^ 53) / 2 ^ 52 % 2 ^ 11 = e + 2 := by omega
      have hsig : 2 ^ 52 + (e * 2 ^ 52 + 2 ^ 53) % 2 ^ 52 = 2 ^ 52 := by omega
      have hscale : ((e + 2 : Nat) : Int) - 1075 = (e - 1074) + 1 := by omega
      simp only [hexp, hsig, hscale, Nat.succ_ne_zero, if_false, zpow_add_one₀ (two_ne_zero (α := ℚ))]
      push_cast
      ring

@[simp] theorem roundQuotient_one (n : Nat) : roundQuotient n 1 = n := by
  simp [roundQuotient, Nat.mod_one]

theorem binaryExponent_one {n : Nat} (hn : n ≠ 0) : binaryExponent n 1 = Nat.log2 n := by
  have hlog : Nat.log2 1 = 0 := by decide
  simp [binaryExponent, hlog, Nat.log2_self_le hn]

/-- An integer below `2 ^ 53` needs no rounding: its significand is the integer shifted up to 53 bits. -/
theorem roundMagnitude_one {n : Nat} (hn : n ≠ 0) (hlt : n < 2 ^ 53) :
    roundMagnitude n 1 = (n.log2 + 1022) * 2 ^ 52 + n * 2 ^ (52 - n.log2) := by
  have hlog : n.log2 < 53 := (Nat.log2_lt hn).mpr hlt
  have hulp : max ((n.log2 : Int) - 52) (-1074) = n.log2 - 52 := by omega
  have hfield : ((n.log2 : Int) - 52 + 1074).toNat = n.log2 + 1022 := by omega
  have hshift : (-((n.log2 : Int) - 52)).toNat = 52 - n.log2 := by omega
  have hden : ((n.log2 : Int) - 52).toNat = 0 := by omega
  simp only [roundMagnitude, hn, if_false, binaryExponent_one hn, hulp, hfield, hshift, hden, pow_zero, mul_one,
    roundQuotient_one]

/-- Shifted up by `52 - log2 n`, an integer below `2 ^ 53` is a normal significand. -/
theorem shifted_significand_bounds {n : Nat} (hn : n ≠ 0) (hlt : n < 2 ^ 53) :
    2 ^ 52 ≤ n * 2 ^ (52 - n.log2) ∧ n * 2 ^ (52 - n.log2) < 2 ^ 53 := by
  have hlog : n.log2 < 53 := (Nat.log2_lt hn).mpr hlt
  constructor
  · calc 2 ^ 52 = 2 ^ n.log2 * 2 ^ (52 - n.log2) := by rw [← pow_add]; congr 1; omega
      _ ≤ n * 2 ^ (52 - n.log2) := Nat.mul_le_mul_right _ (Nat.log2_self_le hn)
  · calc n * 2 ^ (52 - n.log2) < 2 ^ (n.log2 + 1) * 2 ^ (52 - n.log2) :=
          Nat.mul_lt_mul_of_pos_right Nat.lt_log2_self (Nat.two_pow_pos _)
      _ = 2 ^ 53 := by rw [← pow_add]; congr 1; omega

/-- The packed magnitude of a natural below `2 ^ 53` is finite and stands for exactly that natural. -/
theorem f64Pack_roundMagnitude_one (sign : Bool) {n : Nat} (hlt : n < 2 ^ 53) :
    f64Finite (f64Pack sign (roundMagnitude n 1)) = true ∧
      f64Value (f64Pack sign (roundMagnitude n 1)) = (if sign then -1 else 1) * (n : ℚ) := by
  by_cases hn : n = 0
  · subst hn
    exact ⟨f64Finite_f64Pack sign (by decide), by simp [f64Value, f64Significand, roundMagnitude]⟩
  · have hlog : n.log2 < 53 := (Nat.log2_lt hn).mpr hlt
    obtain ⟨hge, hlt'⟩ := shifted_significand_bounds hn hlt
    have hfinite : (n.log2 + 1022) * 2 ^ 52 + n * 2 ^ (52 - n.log2) < 2047 * 2 ^ 52 := by omega
    have hscale : ((n.log2 + 1022 : Nat) : Int) - 1074 = -((52 - n.log2 : Nat) : Int) := by omega
    rw [roundMagnitude_one hn hlt]
    refine ⟨f64Finite_f64Pack sign hfinite, ?_⟩
    rw [f64Value_f64Pack sign hlt'.le (.inr hge) hfinite, hscale, zpow_neg, zpow_natCast]
    push_cast
    field_simp

/-- Settles O33: the integers of the decoder are below `2 ^ 53` in magnitude, so `f64Pack_roundMagnitude_one` applies. -/
theorem integersConvertExactly : Obligations.IntegersConvertExactly := by
  intro i hi
  obtain ⟨hfinite, hvalue⟩ := f64Pack_roundMagnitude_one (decide (i < 0)) (n := i.natAbs) (by omega)
  refine ⟨hfinite, hvalue.trans ?_, f64Sign_f64Pack _ _⟩
  rcases lt_or_ge i 0 with hneg | hpos
  · simp [hneg, abs_of_neg hneg, Nat.cast_natAbs]
  · simp [not_lt.mpr hpos, abs_of_nonneg hpos, Nat.cast_natAbs]

end Sys2Proof.Machine

/-! PROOFS. What a step of any agent can do, said once: an event that is not the Sequencer's keeps the block, accepts a word
or resets; the Sequencer's transition is one of a few updates of its state. -/

namespace Sys2Proof.Machine

/-- Nothing that the block holds or has shown differs between the two states. -/
structure BlockKept (s t : State) : Prop where
  seq  : t.seq = s.seq
  bank : t.bank = s.bank
  log  : t.log = s.log
  sent : t.link.txStream = s.link.txStream

/-- The block of `t` is that of `s` after an accept (10_state.md R25). -/
structure Accepted (s t : State) : Prop where
  free : s.bank.busy = false
  seq  : ∃ w, t.seq = { s.seq with cmd := w }
  bank : t.bank = { s.bank with busy := true, done := false }

section Agents

variable {s t : State}

theorem hostAct_cases {a : HostAccess} (h : hostAct a s = .next t) :
    BlockKept s t ∨ (Accepted s t ∧ ∃ w, a = .write 0x00 4 w) := by
  cases a with
  | read off bytes =>
    obtain ⟨v, -, -, rfl⟩ := hostRead_cases h
    exact .inl ⟨rfl, rfl, rfl, rfl⟩
  | write off bytes w =>
    obtain ⟨rfl, rfl, hfree, rfl⟩ := hostWrite_cases h
    exact .inr ⟨⟨hfree, ⟨w, rfl⟩, rfl⟩, w, rfl⟩

theorem hostProgramStep_cases (h : hostProgramStep s = .next t) : BlockKept s t ∨ Accepted s t := by
  unfold hostProgramStep at h
  split at h
  · split at h
    · rename_i u hread
      obtain ⟨v, -, -, rfl⟩ := hostRead_cases hread
      cases h
      exact .inl ⟨rfl, rfl, rfl, rfl⟩
    · cases h
    · cases h
  · split at h
    · cases h
      exact .inl ⟨rfl, rfl, rfl, rfl⟩
    · obtain ⟨-, -, hfree, rfl⟩ := hostWrite_cases h
      exact .inr ⟨hfree, ⟨_, rfl⟩, rfl⟩
    · split at h
      · rename_i u hread
        obtain ⟨v, -, -, rfl⟩ := hostRead_cases hread
        cases h
        exact .inl ⟨rfl, rfl, rfl, rfl⟩
      · cases h
      · cases h

theorem act_cases {e : Event} (h : act e s = .next t) :
    (e = .sequencer ∧ seqStep s = .next t) ∨ BlockKept s t ∨
    (Accepted s t ∧ ((∃ w, e = .hostAccess (.write 0x00 4 w)) ∨ e = .hostProgram)) ∨
    (e = .reset ∧ t = blockReset s) := by
  cases e with
  | sequencer => exact .inl ⟨rfl, h⟩
  | linkAccepts => cases h; exact .inr (.inl ⟨rfl, rfl, rfl, rfl⟩)
  | linkDelivers b => cases h; exact .inr (.inl ⟨rfl, rfl, rfl, rfl⟩)
  | hostAccess a =>
    rcases hostAct_cases h with hkept | ⟨hacc, w, rfl⟩
    · exact .inr (.inl hkept)
    · exact .inr (.inr (.inl ⟨hacc, .inl ⟨w, rfl⟩⟩))
  | hostLoads st => cases h; exact .inr (.inl ⟨rfl, rfl, rfl, rfl⟩)
  | hostProgram =>
    rcases hostProgramStep_cases h with hkept | hacc
    · exact .inr (.inl hkept)
    · exact .inr (.inr (.inl ⟨hacc, .inr rfl⟩))
  | reset => cases h; exact .inr (.inr (.inr ⟨rfl, rfl⟩))

theorem nextEvent_keeps_block (s : State) : BlockKept s (nextEvent s).2 := by
  obtain ⟨hseq, hbank, hlink, -, hlog⟩ := nextEvent_frame s
  exact ⟨hseq, hbank, hlog, congrArg LinkState.txStream hlink⟩

theorem seqStep_of_step (hevent : (nextEvent s).1 = .sequencer) (h : step s = .next t) :
    seqStep (nextEvent s).2 = .next t := by
  rw [step, hevent] at h
  exact h

/-- A step of the machine: the Sequencer's transition once the event is chosen, or an event of another agent. -/
theorem step_cases (h : step s = .next t) :
    ((nextEvent s).1 = .sequencer ∧ seqStep (nextEvent s).2 = .next t) ∨ BlockKept s t ∨
    (Accepted s t ∧ ((∃ w, (nextEvent s).1 = .hostAccess (.write 0x00 4 w)) ∨ (nextEvent s).1 = .hostProgram)) ∨
    ((nextEvent s).1 = .reset ∧ t = blockReset (nextEvent s).2) := by
  obtain ⟨hseq, hbank, hlog, hsent⟩ := nextEvent_keeps_block s
  rcases act_cases h with hstep | hkept | ⟨hacc, hevent⟩ | hreset
  · exact .inl hstep
  · exact .inr (.inl ⟨hkept.seq.trans hseq, hkept.bank.trans hbank, hkept.log.trans hlog, hkept.sent.trans hsent⟩)
  · obtain ⟨hfree, hword, hbank'⟩ := hacc
    rw [hseq] at hword
    rw [hbank] at hfree hbank'
    exact .inr (.inr (.inl ⟨⟨hfree, hword, hbank'⟩, hevent⟩))
  · exact .inr (.inr (.inr hreset))

end Agents

/-! ### The Sequencer's transitions -/

section Sequencer

variable {s t : State}

/-- Dispatch completes an illegal word or `DECODE`, plays the first entry of the table, or starts the command's
transaction (41_transaction_engine.md R131). -/
theorem seqDispatch_cases (h : seqDispatch s = .next t) :
    (∃ e, decode (.command s.seq.cmd) = .error e ∧ t = raiseIllegal s) ∨
    (∃ data tag div, decode (.command s.seq.cmd) = .ok (.decode data tag div) ∧
      t = complete .none (setVal (decodeValue data tag div) (setRaw data s))) ∨
    (decode (.command s.seq.cmd) = .ok .beginInit ∧ t = playEntry initTable (setInitIdx 0 s)) ∨
    (∃ i kind addr data, decode (.command s.seq.cmd) = .ok i ∧
      txnOfCommand i s.seq.initIdx = some (kind, addr, data) ∧ t = startTxn kind addr data s) := by
  unfold seqDispatch at h
  split at h
  · rename_i i hi
    rcases decode_command_cases hi with ⟨a, rfl, -⟩ | ⟨a, d, rfl, -⟩ | ⟨a, tag, div, rfl, -⟩ | ⟨d, tag, div, rfl, -⟩ |
      ⟨rfl, -⟩ | ⟨rfl, -⟩ <;> cases h
    · exact .inr (.inr (.inr ⟨_, .read, a, 0, hi, rfl, rfl⟩))
    · exact .inr (.inr (.inr ⟨_, .write, a, d, hi, rfl, rfl⟩))
    · exact .inr (.inr (.inr ⟨_, .read, a, 0, hi, rfl, rfl⟩))
    · exact .inr (.inl ⟨d, tag, div, hi, rfl⟩)
    · exact .inr (.inr (.inl ⟨hi, rfl⟩))
    · exact .inr (.inr (.inr ⟨_, .read, Config.sysStatusAddr, 0, hi, rfl, rfl⟩))
  · rename_i e he
    cases h
    exact .inl ⟨e, he, rfl⟩

/-- `TX` waits, or hands over one byte of a frame; the frame is as long as the buffer says, if the buffer has that many
bytes. -/
theorem seqTransmit_cases (h : seqTransmit s = .next t) :
    t = s ∨ ∃ b len, t = txAdvance len (txSend b s) ∧
      ((s.seq.tx.toList.take s.seq.txLen.toNat).length = s.seq.txLen.toNat → len = s.seq.txLen) := by
  have hsend : ∃ frame len, transmit frame len s = .next t ∧
      ((s.seq.tx.toList.take s.seq.txLen.toNat).length = s.seq.txLen.toNat → len = s.seq.txLen) := by
    unfold seqTransmit at h
    split at h
    · rename_i i hi
      rcases decode_request_cases hi with ⟨a, rfl, hlen⟩ | ⟨a, d, rfl, hlen⟩
      · exact ⟨_, 2, h, fun heq => BitVec.eq_of_toNat_eq (hlen.symm.trans heq)⟩
      · exact ⟨_, 5, h, fun heq => BitVec.eq_of_toNat_eq (hlen.symm.trans heq)⟩
    · exact ⟨_, _, h, fun _ => rfl⟩
  obtain ⟨frame, len, htx, hlen⟩ := hsend
  rcases transmit_cases htx with ⟨-, rfl⟩ | ⟨b, -, -, rfl⟩
  · exact .inl rfl
  · exact .inr ⟨b, len, rfl, hlen⟩

/-- `validate` finishes the command with the transaction's outcome Ok, or takes the mismatch of the transaction's kind into
the penalty (41_transaction_engine.md R138). A validated write keeps its raw value: it is `txnReadOk` of that one. -/
theorem validate_cases (h : validate s = .next t) :
    (∃ raw, finish (txnReadOk raw s) = .next t) ∨ (∃ hi lo chk, t = readMismatch hi lo chk s) ∨
    (s.seq.op = .write ∧ ∃ echo, t = writeMismatch echo s) := by
  rw [validate_eq] at h
  cases hop : s.seq.op with
  | read =>
    simp only [hop, execFrameRdResp] at h
    split at h
    · exact .inl ⟨_, h⟩
    · cases h
      exact .inr (.inl ⟨_, _, _, rfl⟩)
  | write =>
    simp only [hop, execFrameWrAck] at h
    split at h
    · exact .inl ⟨s.seq.txnRaw, h⟩
    · cases h
      exact .inr (.inr ⟨rfl, _, rfl⟩)

/-- The Sequencer's transition by its state (41_transaction_engine.md R130). -/
theorem seqStep_cases (h : seqStep s = .next t) :
    t = s ∨ (s.seq.st = .idle ∧ s.bank.busy = true ∧ seqDispatch s = .next t) ∨
    (s.seq.st = .tx ∧ ∃ b len, t = txAdvance len (txSend b s) ∧
      ((s.seq.tx.toList.take s.seq.txLen.toNat).length = s.seq.txLen.toNat → len = s.seq.txLen)) ∨
    (s.seq.st = .settle ∧ t = seqSettle s) ∨
    (s.seq.st = .rx ∧ ∃ b held,
      (s.seq.rxCnt + 1 ≠ s.seq.rxNeed ∧ t = rxTake b held s) ∨
      (s.seq.rxCnt + 1 = s.seq.rxNeed ∧ validate (rxTake b held s) = .next t)) ∨
    (s.seq.st = .penalty ∧ finish s = .next t) := by
  unfold seqStep at h
  split at h
  · split at h
    · exact .inr (.inl ⟨‹_›, ‹_›, h⟩)
    · cases h; exact .inl rfl
  · rcases seqTransmit_cases h with rfl | hsent
    · exact .inl rfl
    · exact .inr (.inr (.inl ⟨‹_›, hsent⟩))
  · cases h; exact .inr (.inr (.inr (.inl ⟨‹_›, rfl⟩)))
  · rcases seqReceive_cases h with ⟨-, rfl⟩ | ⟨b, held, -, -, htake⟩
    · exact .inl rfl
    · exact .inr (.inr (.inr (.inr (.inl ⟨‹_›, b, held, htake⟩))))
  · exact .inr (.inr (.inr (.inr (.inr ⟨‹_›, h⟩))))

/-- `finish` of a command that the decoder accepts is the finish of that command (41_transaction_engine.md R140). -/
theorem finish_decoded_cases {i : Instr} (hi : decode (.command s.seq.cmd) = .ok i) (h : finish s = .next t) :
    (∃ addr, i = .rdreg addr ∧ t = finishRdreg s) ∨ (∃ addr data, i = .wrreg addr data ∧ t = finishWrreg s) ∨
    (∃ addr tag div, i = .rddec addr tag div ∧
      t = complete (errOfTxn s.seq.txnOk) (setVal (decodeValue s.seq.txnRaw tag div) (setRaw s.seq.txnRaw s))) ∨
    (i = .beginInit ∧ t = nextInit initTable s) ∨ (i = .calerr ∧ t = finishCalerr s) := by
  have hfinish := finish_cases h
  rcases decode_command_cases hi with ⟨a, rfl, hopc⟩ | ⟨a, d, rfl, hopc⟩ | ⟨a, tag, div, rfl, hopc, htag, hdiv⟩ |
    ⟨d, tag, div, rfl, hopc⟩ | ⟨rfl, hopc⟩ | ⟨rfl, hopc⟩ <;> simp [hopc] at hfinish
  · exact .inl ⟨a, rfl, hfinish⟩
  · exact .inr (.inl ⟨a, d, rfl, hfinish⟩)
  · obtain ⟨tag', htag', div', hdiv', rfl⟩ := hfinish
    cases htag.symm.trans htag'
    cases hdiv.symm.trans hdiv'
    exact .inr (.inr (.inl ⟨a, tag, div, rfl, rfl⟩))
  · exact .inr (.inr (.inr (.inl ⟨rfl, hfinish⟩)))
  · exact .inr (.inr (.inr (.inr ⟨rfl, hfinish⟩)))

@[simp] theorem startTxn_bank (kind : TxnKind) (addr : RegAddr) (data : RegVal) (s : State) :
    (startTxn kind addr data s).bank = s.bank := by
  cases kind <;> rfl

@[simp] theorem startTxn_cmd (kind : TxnKind) (addr : RegAddr) (data : RegVal) (s : State) :
    (startTxn kind addr data s).seq.cmd = s.seq.cmd := by
  cases kind <;> rfl

@[simp] theorem txAdvance_bank (len : BitVec 3) (s : State) : (txAdvance len s).bank = s.bank := by
  rcases txAdvance_cases len s with ⟨-, h⟩ | ⟨-, h⟩ <;> rw [h]

@[simp] theorem txAdvance_cmd (len : BitVec 3) (s : State) : (txAdvance len s).seq.cmd = s.seq.cmd := by
  rcases txAdvance_cases len s with ⟨-, h⟩ | ⟨-, h⟩ <;> rw [h]

end Sequencer

end Sys2Proof.Machine

/-! PROOFS. The invariant of the machine: it holds at reset, and every step of every agent keeps it. -/

namespace Sys2Proof.Machine

/-- Settles O36: no register outside the delay and the table's index depends on a parameter, and those two are 0. -/
theorem invariantHoldsAtReset : Obligations.InvariantHoldsAtReset :=
  ⟨by decide, by decide, Nat.two_pow_pos _, Nat.zero_le _, fun hst => absurd rfl hst⟩

/-- The invariant is about the block's registers alone. -/
theorem inv_of_kept {s t : State} (h : Inv s) (hseq : t.seq = s.seq) (hbank : t.bank = s.bank) : Inv t := by
  obtain ⟨notBoth, calerr, dly, initIdx, inFlight⟩ := h
  rw [← hbank] at notBoth calerr
  rw [← hseq] at dly initIdx inFlight
  refine ⟨notBoth, calerr, dly, initIdx, fun hst => ?_⟩
  obtain ⟨busy, loaded, phase⟩ := inFlight hst
  rw [← hbank] at busy
  rw [← hseq] at loaded phase
  exact ⟨busy, loaded, phase⟩

theorem inv_blockReset (s : State) : Inv (blockReset s) := inv_of_kept invariantHoldsAtReset rfl rfl

/-- With `BUSY` = 0 the Sequencer is in `IDLE`. -/
theorem idle_of_free {s : State} (h : Inv s) (hfree : s.bank.busy = false) : s.seq.st = .idle := by
  by_contra hst
  simpa [hfree] using (h.inFlight hst).busy

theorem inv_of_accepted {s t : State} (h : Inv s) (hacc : Accepted s t) : Inv t := by
  obtain ⟨hfree, ⟨w, hseq⟩, hbank⟩ := hacc
  refine ⟨by simp [hbank], by simpa [hbank] using h.calerr, by simpa [hseq] using h.dly,
    by simpa [hseq] using h.initIdx, fun hst => absurd ?_ hst⟩
  simpa [hseq] using idle_of_free h hfree

/-- What the invariant says of a busy state, whatever transaction it holds. -/
structure BusyInv (s : State) : Prop where
  busy    : s.bank.busy = true
  notDone : s.bank.done = false
  calerr  : s.bank.calerr = (s.bank.calflags != 0)
  dly     : s.seq.dly < 2 ^ Config.delayWidth
  initIdx : s.seq.initIdx ≤ initTable.length

/-- The registers hold the transaction of the latched command. -/
def HoldsTxn (q : SeqRegs) : Prop :=
  ∃ i kind addr data, decode (.command q.cmd) = .ok i ∧ txnOfCommand i q.initIdx = some (kind, addr, data) ∧
    TxnLoaded q kind addr data

/-- `q'` may differ from `q` only in the registers that move in the course of a transaction. -/
def SameTxn (q q' : SeqRegs) : Prop :=
  q' = { q with st := q'.st, txIdx := q'.txIdx, rx := q'.rx, rxCnt := q'.rxCnt, dly := q'.dly, txnOk := q'.txnOk,
                txnRaw := q'.txnRaw }

theorem HoldsTxn.of_sameTxn {q q' : SeqRegs} (h : HoldsTxn q) (hsame : SameTxn q q') : HoldsTxn q' := by
  obtain ⟨i, kind, addr, data, hi, htxn, ⟨op, abyte, frame, txLen, rxNeed, chk⟩⟩ := h
  rw [hsame]
  exact ⟨i, kind, addr, data, hi, htxn, ⟨op, abyte, frame, txLen, rxNeed, chk⟩⟩

/-- The buffer has as many bytes as the transaction's frame. -/
theorem HoldsTxn.frame_length {q : SeqRegs} (h : HoldsTxn q) :
    (q.tx.toList.take q.txLen.toNat).length = q.txLen.toNat := by
  obtain ⟨i, kind, addr, data, -, -, hloaded⟩ := h
  rw [hloaded.frame, hloaded.txLen]

/-- A response has at least one byte. -/
theorem HoldsTxn.rxNeed_pos {q : SeqRegs} (h : HoldsTxn q) : 0 < q.rxNeed.toNat := by
  obtain ⟨i, kind, addr, data, -, -, hloaded⟩ := h
  rw [hloaded.rxNeed]
  cases kind <;> decide

section Busy

variable {s t : State}

theorem busyInv_of_inv (h : Inv s) (hbusy : s.bank.busy = true) : BusyInv s :=
  ⟨hbusy, by simpa [hbusy] using h.notBoth, h.calerr, h.dly, h.initIdx⟩

theorem BusyInv.notBoth (h : BusyInv s) : ¬(s.bank.busy = true ∧ s.bank.done = true) := by
  simp [h.notDone]

theorem BusyInv.complete (h : BusyInv s) (e : ErrCode) : Inv (complete e s) :=
  inv_complete e h.calerr h.dly h.initIdx

theorem BusyInv.startTxn (h : BusyInv s) {i : Instr} {kind : TxnKind} {addr : RegAddr} {data : RegVal}
    (hi : decode (.command s.seq.cmd) = .ok i) (htxn : txnOfCommand i s.seq.initIdx = some (kind, addr, data)) :
    Inv (startTxn kind addr data s) :=
  inv_startTxn h.notBoth h.calerr h.dly h.initIdx h.busy hi htxn

theorem BusyInv.of_sameTxn (h : BusyInv s) (hbank : t.bank = s.bank) (hsame : SameTxn s.seq t.seq)
    (hdly : t.seq.dly < 2 ^ Config.delayWidth) : BusyInv t := by
  have hidx : t.seq.initIdx = s.seq.initIdx := by rw [hsame]
  exact ⟨hbank ▸ h.busy, hbank ▸ h.notDone, hbank ▸ h.calerr, hdly, hidx ▸ h.initIdx⟩

/-- A step within the transaction: the bank stays, the delay fits, and the counts agree with the new state. -/
theorem BusyInv.inv_of_sameTxn (h : BusyInv s) (hheld : HoldsTxn s.seq) (hbank : t.bank = s.bank)
    (hsame : SameTxn s.seq t.seq) (hdly : t.seq.dly < 2 ^ Config.delayWidth) (hphase : phaseOk t.seq) : Inv t := by
  have ht := h.of_sameTxn hbank hsame hdly
  exact ⟨ht.notBoth, ht.calerr, ht.dly, ht.initIdx, fun _ => ⟨ht.busy, hheld.of_sameTxn hsame, hphase⟩⟩

/-- The table's entry at the index is what `BEGIN` performs; past the last one it completes. -/
theorem BusyInv.playEntry (h : BusyInv s) (hi : decode (.command s.seq.cmd) = .ok .beginInit) :
    Inv (playEntry initTable s) := by
  rcases playEntry_cases initTable s with ⟨e, he, hplay⟩ | ⟨-, hplay⟩
  · rw [hplay]
    exact h.startTxn hi (by simp [txnOfCommand, he])
  · rw [hplay]
    exact h.complete .none

/-- Dispatch meets the invariant, with or without a transaction. -/
theorem inv_seqDispatch (h : BusyInv s) (hstep : seqDispatch s = .next t) : Inv t := by
  rcases seqDispatch_cases hstep with ⟨e, -, rfl⟩ | ⟨data, tag, div, -, rfl⟩ | ⟨hi, rfl⟩ |
    ⟨i, kind, addr, data, hi, htxn, rfl⟩
  · exact h.complete .illegal
  · exact inv_complete _ h.calerr h.dly h.initIdx
  · exact BusyInv.playEntry ⟨h.busy, h.notDone, h.calerr, h.dly, Nat.zero_le _⟩ hi
  · exact h.startTxn hi htxn

/-- The finish of the command whose transaction is held meets the invariant: only `BEGIN` has a next transaction, and its
index does not pass the table's length (43_device_initializer.md R182). -/
theorem inv_finish (h : BusyInv s) (hheld : HoldsTxn s.seq) (hstep : finish s = .next t) : Inv t := by
  obtain ⟨i, kind, addr, data, hi, htxn, -⟩ := hheld
  rcases finish_decoded_cases hi hstep with ⟨a, rfl, rfl⟩ | ⟨a, d, rfl, rfl⟩ | ⟨a, tag, div, rfl, rfl⟩ | ⟨rfl, rfl⟩ |
    ⟨rfl, rfl⟩
  · exact inv_complete _ h.calerr h.dly h.initIdx
  · exact h.complete _
  · exact inv_complete _ h.calerr h.dly h.initIdx
  · have hlt : s.seq.initIdx < initTable.length := by
      simp only [txnOfCommand, Option.map_eq_some_iff] at htxn
      obtain ⟨e, he, -⟩ := htxn
      exact (List.getElem?_eq_some_iff.mp he).1
    exact BusyInv.playEntry ⟨h.busy, h.notDone, h.calerr, h.dly, hlt⟩ hi
  · exact inv_complete _ (calErr_eq _) h.dly h.initIdx

/-- A byte handed over leaves bytes to send, or begins the settle delay after the last one. -/
theorem inv_txAdvance (h : BusyInv s) (hheld : HoldsTxn s.seq) (hst : s.seq.st = .tx) (hphase : phaseOk s.seq)
    (b : Byte) : Inv (txAdvance s.seq.txLen (txSend b s)) := by
  simp only [phaseOk, hst] at hphase
  obtain ⟨hidx, hcnt⟩ := hphase
  rcases txAdvance_cases s.seq.txLen (txSend b s) with ⟨hlast, hadv⟩ | ⟨hmore, hadv⟩
  · rw [hadv]
    exact h.inv_of_sameTxn hheld rfl rfl settleDelay_fits ⟨hlast, hcnt⟩
  · rw [hadv]
    refine h.inv_of_sameTxn hheld rfl rfl h.dly ?_
    simp only [txSend_seq] at hmore
    simp only [phaseOk, txSend_seq, hst]
    exact ⟨by bv_omega, hcnt⟩

/-- After the settle delay a response of one byte or more is awaited. -/
theorem inv_seqSettle (h : BusyInv s) (hheld : HoldsTxn s.seq) (hst : s.seq.st = .settle) (hphase : phaseOk s.seq) :
    Inv (seqSettle s) := by
  simp only [phaseOk, hst] at hphase
  obtain ⟨hidx, hcnt⟩ := hphase
  exact h.inv_of_sameTxn hheld rfl rfl h.dly ⟨hidx, by simpa [hcnt] using hheld.rxNeed_pos⟩

/-- A response byte that is not the last one leaves bytes to receive. -/
theorem inv_rxTake (h : BusyInv s) (hheld : HoldsTxn s.seq) (hst : s.seq.st = .rx) (hphase : phaseOk s.seq)
    (hmore : s.seq.rxCnt + 1 ≠ s.seq.rxNeed) (b : Byte) (held : List Byte) : Inv (rxTake b held s) := by
  simp only [phaseOk, hst] at hphase
  obtain ⟨hidx, hcnt⟩ := hphase
  refine h.inv_of_sameTxn hheld rfl rfl h.dly ?_
  simp only [phaseOk, rxTake_st, hst]
  exact ⟨hidx, by simp only [rxTake_rxCnt, rxTake_rxNeed]; bv_omega⟩

/-- A whole response is validated into a finish or into the penalty. -/
theorem inv_validate (h : BusyInv s) (hheld : HoldsTxn s.seq) (hidx : s.seq.txIdx = s.seq.txLen)
    (hcnt : s.seq.rxCnt = s.seq.rxNeed) (hstep : validate s = .next t) : Inv t := by
  rcases validate_cases hstep with ⟨raw, hfinish⟩ | ⟨hi, lo, chk, rfl⟩ | ⟨hop, echo, rfl⟩
  · exact inv_finish (s := txnReadOk raw s) (h.of_sameTxn rfl rfl h.dly) (hheld.of_sameTxn rfl) hfinish
  · exact h.inv_of_sameTxn hheld rfl rfl failDelay_fits ⟨hidx, hcnt, rfl, fun _ => rfl⟩
  · exact h.inv_of_sameTxn hheld rfl rfl failDelay_fits ⟨hidx, hcnt, rfl, by simp [hop]⟩

/-- Every transition of the Sequencer keeps the invariant (41_transaction_engine.md R130 to R140). -/
theorem inv_seqStep (h : Inv s) (hstep : seqStep s = .next t) : Inv t := by
  have hflight : s.seq.st ≠ .idle → BusyInv s ∧ HoldsTxn s.seq ∧ phaseOk s.seq := by
    intro hne
    obtain ⟨hbusy, hheld, hphase⟩ := h.inFlight hne
    exact ⟨busyInv_of_inv h hbusy, hheld, hphase⟩
  rcases seqStep_cases hstep with rfl | ⟨-, hbusy, hdispatch⟩ | ⟨hst, b, len, rfl, hlen⟩ | ⟨hst, rfl⟩ |
    ⟨hst, b, held, hreceive⟩ | ⟨hst, hfinish⟩
  · exact h
  · exact inv_seqDispatch (busyInv_of_inv h hbusy) hdispatch
  · obtain ⟨hbase, hheld, hphase⟩ := hflight (by simp [hst])
    rw [hlen hheld.frame_length]
    exact inv_txAdvance hbase hheld hst hphase b
  · obtain ⟨hbase, hheld, hphase⟩ := hflight (by simp [hst])
    exact inv_seqSettle hbase hheld hst hphase
  · obtain ⟨hbase, hheld, hphase⟩ := hflight (by simp [hst])
    rcases hreceive with ⟨hmore, rfl⟩ | ⟨hlast, hvalidate⟩
    · exact inv_rxTake hbase hheld hst hphase hmore b held
    · simp only [phaseOk, hst] at hphase
      obtain ⟨hidx, -⟩ := hphase
      exact inv_validate (s := rxTake b held s) (hbase.of_sameTxn rfl rfl hbase.dly) (hheld.of_sameTxn rfl) hidx hlast
        hvalidate
  · obtain ⟨hbase, hheld, -⟩ := hflight (by simp [hst])
    exact inv_finish hbase hheld hfinish

end Busy

/-- Settles O37, agent by agent: the Sequencer by its transitions, an accept because a block that is not busy is in `IDLE`,
reset by its values, and any other event because it keeps the block. -/
theorem everyStepKeepsTheInvariant : Obligations.EveryStepKeepsTheInvariant := by
  intro s t h hstep
  have hchosen := nextEvent_keeps_block s
  rcases step_cases hstep with ⟨-, hseq⟩ | hkept | ⟨hacc, -⟩ | ⟨-, rfl⟩
  · exact inv_seqStep (inv_of_kept h hchosen.seq hchosen.bank) hseq
  · exact inv_of_kept h hkept.seq hkept.bank
  · exact inv_of_accepted h hacc
  · exact inv_blockReset _

end Sys2Proof.Machine

/-! PROOFS. The Host bank: its reset values, an accept, the layout of its words, and the steps that change it. -/

namespace Sys2Proof.Machine

/-- Settles O1: the event is `blockReset`, whose values are R40's, and it leaves `IDLE` with `BUSY` = 0. -/
theorem resetPutsEveryFieldAtItsResetValue : Obligations.ResetPutsEveryFieldAtItsResetValue :=
  fun s => ⟨blockReset s, rfl, rfl, rfl, rfl, rfl⟩

/-- A whole-word write to `CMD` is an accept or a `BusyViolation` (10_state.md R25). -/
theorem hostWrite_cmd (w : Word) (s : State) :
    hostWrite 0x00 4 w s = if s.bank.busy then .fault .busyViolation else .next (accept w s) := rfl

/-- Settles O2: the scheduled event is the write, and after it the scheduled Sequencer finds `IDLE` and `BUSY` = 1. -/
theorem acceptLatchesTheWordOrFaults : Obligations.AcceptLatchesTheWordOrFaults := by
  intro s w rest hpending
  have hstep : step s = hostWrite 0x00 4 w { s with pending := .sequencer :: rest } := by
    simp only [step, nextEvent_scheduled _ _ _ hpending]
    rfl
  rw [hstep, hostWrite_cmd]
  refine ⟨fun hbusy => by simp [hbusy], fun hfree => ?_⟩
  simp only [hfree]
  refine ⟨_, rfl, rfl, fun hidle => ?_⟩
  rw [step, nextEvent_scheduled _ _ _ rfl]
  simp only [act, seqStep, accept, hidle, if_true]

/-- The two bits of `STAT.ERR` (60_exceptions.md R200). -/
theorem errBits_getLsbD (e : ErrCode) (i : Nat) :
    (errBits e).getLsbD i = if i = 0 then decide (e = .checksum) else if i = 1 then decide (e = .illegal) else false := by
  match i with
  | 0 => cases e <;> rfl
  | 1 => cases e <;> rfl
  | n + 2 => exact BitVec.getLsbD_of_ge _ _ (by omega)

/-- The bits of `STAT` (10_state.md R26). -/
theorem statWord_getLsbD (b : BankRegs) (i : Nat) :
    (statWord b).getLsbD i =
      if i = 0 then b.busy else if i = 1 then b.done
      else if i = 2 then decide (b.err = .checksum) else if i = 3 then decide (b.err = .illegal)
      else if i = 4 then b.calerr
      else if 8 ≤ i ∧ i < 12 then b.calflags.getLsbD (i - 8) else false := by
  change BitVec.getLsbD (w := 20 + 4 + 3 + 1 + 2 + 1 + 1) ((0 : BitVec 20) ++ b.calflags ++ (0 : BitVec 3) ++
    BitVec.ofBool b.calerr ++ errBits b.err ++ BitVec.ofBool b.done ++ BitVec.ofBool b.busy) i = _
  simp only [BitVec.getLsbD_append, errBits_getLsbD]
  match i with
  | 0 | 1 | 2 | 3 | 4 | 5 | 6 | 7 => simp
  | n + 8 =>
    have hflags : n + 8 < 12 ↔ n < 4 := by omega
    by_cases hn : n < 4 <;> simp [hflags, hn]

/-- Settles O4: the five words by their offset, `STAT` by `statWord_getLsbD`. -/
theorem bankWordsReadByTheirLayout : Obligations.BankWordsReadByTheirLayout := by
  intro s off haligned hin
  obtain rfl | rfl | rfl | rfl | rfl : off = 0x00 ∨ off = 0x04 ∨ off = 0x08 ∨ off = 0x0C ∨ off = 0x10 := by omega
  · exact ⟨0, rfl, by simp⟩
  · exact ⟨statWord s.bank, rfl, by simp [statWord_getLsbD]⟩
  · exact ⟨s.bank.raw.setWidth 32, rfl, by simp; omega⟩
  · exact ⟨s.bank.val.extractLsb' 0 32, rfl, by simp⟩
  · exact ⟨s.bank.val.extractLsb' 32 32, rfl, by simp [Nat.shiftRight_eq_div_pow]; omega⟩

/-- A Sequencer step keeps the latched word, and it keeps the bank or completes the command (10_state.md R34). -/
structure KeepsOrCompletes (s t : State) : Prop where
  cmd  : t.seq.cmd = s.seq.cmd
  bank : t.bank = s.bank ∨ (t.bank.busy = false ∧ t.bank.done = true ∧ t.seq.st = .idle)

section Sequencer

variable {s t : State}

theorem keepsOrCompletes_complete (e : ErrCode) {u : State} (hcmd : u.seq.cmd = s.seq.cmd) :
    KeepsOrCompletes s (complete e u) :=
  ⟨hcmd, .inr ⟨rfl, rfl, rfl⟩⟩

theorem keepsOrCompletes_playEntry (table : List InitEntry) (n : Nat) (s : State) :
    KeepsOrCompletes s (playEntry table (setInitIdx n s)) := by
  rcases playEntry_cases table (setInitIdx n s) with ⟨e, -, hplay⟩ | ⟨-, hplay⟩
  · rw [hplay]
    exact ⟨rfl, .inl rfl⟩
  · rw [hplay]
    exact keepsOrCompletes_complete _ rfl

theorem keepsOrCompletes_finish (h : finish s = .next t) : KeepsOrCompletes s t := by
  rcases finish_cases h with ⟨-, rfl⟩ | ⟨-, rfl⟩ | ⟨-, tag, div, -, -, rfl⟩ | ⟨-, rfl⟩ | ⟨-, rfl⟩
  · exact keepsOrCompletes_complete _ rfl
  · exact keepsOrCompletes_complete _ rfl
  · exact keepsOrCompletes_complete _ rfl
  · exact keepsOrCompletes_playEntry _ _ s
  · exact keepsOrCompletes_complete _ rfl

theorem keepsOrCompletes_seqDispatch (h : seqDispatch s = .next t) : KeepsOrCompletes s t := by
  rcases seqDispatch_cases h with ⟨e, -, rfl⟩ | ⟨data, tag, div, -, rfl⟩ | ⟨-, rfl⟩ | ⟨i, kind, addr, data, -, -, rfl⟩
  · exact keepsOrCompletes_complete _ rfl
  · exact keepsOrCompletes_complete _ rfl
  · exact keepsOrCompletes_playEntry _ _ s
  · exact ⟨startTxn_cmd .., .inl (startTxn_bank ..)⟩

theorem keepsOrCompletes_validate (h : validate s = .next t) : KeepsOrCompletes s t := by
  rcases validate_cases h with ⟨raw, hfinish⟩ | ⟨hi, lo, chk, rfl⟩ | ⟨-, echo, rfl⟩
  · obtain ⟨hcmd, hbank⟩ := keepsOrCompletes_finish hfinish
    exact ⟨hcmd, hbank⟩
  · exact ⟨rfl, .inl rfl⟩
  · exact ⟨rfl, .inl rfl⟩

theorem keepsOrCompletes_seqStep (h : seqStep s = .next t) : KeepsOrCompletes s t := by
  rcases seqStep_cases h with rfl | ⟨-, -, hdispatch⟩ | ⟨-, b, len, rfl, -⟩ | ⟨-, rfl⟩ | ⟨-, b, held, htake⟩ |
    ⟨-, hfinish⟩
  · exact ⟨rfl, .inl rfl⟩
  · exact keepsOrCompletes_seqDispatch hdispatch
  · exact ⟨txAdvance_cmd .., .inl (txAdvance_bank ..)⟩
  · exact ⟨rfl, .inl rfl⟩
  · rcases htake with ⟨-, rfl⟩ | ⟨-, hvalidate⟩
    · exact ⟨rfl, .inl rfl⟩
    · obtain ⟨hcmd, hbank⟩ := keepsOrCompletes_validate hvalidate
      exact ⟨hcmd, hbank⟩
  · exact keepsOrCompletes_finish hfinish

end Sequencer

/-- Settles O43: the Sequencer keeps the bank or completes, and an event of another agent keeps the block, accepts or
resets. -/
theorem bankChangesOnlyByAcceptCompletionOrReset : Obligations.BankChangesOnlyByAcceptCompletionOrReset := by
  intro s t hstep
  rcases step_cases hstep with ⟨hevent, hseq⟩ | hkept | ⟨hacc, hevent⟩ | ⟨hevent, rfl⟩
  · rcases (keepsOrCompletes_seqStep hseq).bank with hbank | hcomplete
    · exact .inl (hbank.trans (nextEvent_keeps_block s).bank)
    · exact .inr (.inr (.inl ⟨hevent, hcomplete⟩))
  · exact .inl hkept.bank
  · exact .inr (.inl ⟨hacc.free, hacc.bank, hevent⟩)
  · exact .inr (.inr (.inr ⟨hevent, rfl⟩))

/-- Settles O45: the Sequencer keeps the latched word, and no word is accepted while `BUSY` = 1. -/
theorem commandInFlightIsNotDisturbed : Obligations.CommandInFlightIsNotDisturbed := by
  intro s t hstep
  have hchosen := nextEvent_keeps_block s
  refine ⟨fun hevent => ?_, fun hbusy hnotSeq hnotReset => ?_⟩
  · rw [(keepsOrCompletes_seqStep (seqStep_of_step hevent hstep)).cmd, hchosen.seq]
  · rcases step_cases hstep with ⟨hevent, -⟩ | ⟨hseq, hbank, hlog, hsent⟩ | ⟨hacc, -⟩ | ⟨hevent, -⟩
    · exact absurd hevent hnotSeq
    · exact ⟨hseq, hbank, hlog, hsent⟩
    · simp [hacc.free] at hbusy
    · exact absurd hevent hnotReset

end Sys2Proof.Machine

/-! PROOFS. Which results a completing command writes (10_state.md R33). -/

namespace Sys2Proof.Machine

/-- `t` has the results that a completion of the decoded word writes over the bank `b`: the row of R33 for its command. -/
def WritesResults (w : Except DecodeError Instr) (b : BankRegs) (t : State) : Prop :=
  t.bank.done = true ∧
  match w with
  | .ok (.rdreg _) => t.bank.err ≠ .illegal ∧ t.bank = { b with
      busy := false, done := true, err := t.bank.err, raw := t.seq.txnRaw }
  | .ok (.wrreg _ _) => t.bank.err ≠ .illegal ∧ t.bank = { b with busy := false, done := true, err := t.bank.err }
  | .ok (.rddec _ tag div) => t.bank.err ≠ .illegal ∧ t.bank = { b with
      busy := false, done := true, err := t.bank.err, raw := t.seq.txnRaw, val := decodeValue t.seq.txnRaw tag div }
  | .ok (.decode data tag div) => t.bank = { b with
      busy := false, done := true, err := .none, raw := data, val := decodeValue data tag div }
  | .ok .beginInit => t.bank = { b with busy := false, done := true, err := .none }
  | .ok .calerr => t.bank.err ≠ .illegal ∧ t.bank = { b with
      busy := false, done := true, err := t.bank.err, raw := t.seq.txnRaw
      calflags := calFlags t.seq.txnRaw, calerr := calErr t.seq.txnRaw }
  | .ok _ => False
  | .error _ => t.bank = { b with busy := false, done := true, err := .illegal }

section Results

variable {s t : State}

theorem errOfTxn_ne_illegal (ok : Bool) : errOfTxn ok ≠ .illegal := by cases ok <;> decide

/-- The entry in flight keeps `BUSY`; past the last one `BEGIN` completes with no error. -/
theorem playEntry_writesResults {table : List InitEntry} (hbusy : s.bank.busy = true)
    (hdone : (playEntry table s).bank.busy = false) : WritesResults (.ok .beginInit) s.bank (playEntry table s) := by
  rcases playEntry_cases table s with ⟨e, -, hplay⟩ | ⟨-, hplay⟩
  · simp [hplay, hbusy] at hdone
  · rw [hplay]
    exact ⟨rfl, rfl⟩

theorem seqDispatch_writesResults (hbusy : s.bank.busy = true) (h : seqDispatch s = .next t)
    (hdone : t.bank.busy = false) : WritesResults (decode (.command s.seq.cmd)) s.bank t := by
  rcases seqDispatch_cases h with ⟨e, he, rfl⟩ | ⟨data, tag, div, hi, rfl⟩ | ⟨hi, rfl⟩ | ⟨i, kind, addr, data, -, -, rfl⟩
  · rw [he]
    exact ⟨rfl, rfl⟩
  · rw [hi]
    exact ⟨rfl, rfl⟩
  · rw [hi]
    exact playEntry_writesResults (s := setInitIdx 0 s) hbusy hdone
  · simp [hbusy] at hdone

/-- The finish of a command the decoder accepts writes its row, with the error of the transaction's outcome and the raw
value of its read. -/
theorem finish_writesResults {i : Instr} (hbusy : s.bank.busy = true) (hi : decode (.command s.seq.cmd) = .ok i)
    (h : finish s = .next t) (hdone : t.bank.busy = false) : WritesResults (.ok i) s.bank t := by
  rcases finish_decoded_cases hi h with ⟨a, rfl, rfl⟩ | ⟨a, d, rfl, rfl⟩ | ⟨a, tag, div, rfl, rfl⟩ | ⟨rfl, rfl⟩ |
    ⟨rfl, rfl⟩
  · exact ⟨rfl, errOfTxn_ne_illegal _, rfl⟩
  · exact ⟨rfl, errOfTxn_ne_illegal _, rfl⟩
  · exact ⟨rfl, errOfTxn_ne_illegal _, rfl⟩
  · exact playEntry_writesResults (s := setInitIdx (s.seq.initIdx + 1) s) hbusy hdone
  · exact ⟨rfl, errOfTxn_ne_illegal _, rfl⟩

/-- Only a dispatch, a validated response and the end of the penalty can clear `BUSY`, and each writes the row of the
latched word. -/
theorem seqStep_writesResults (hinv : Inv s) (hbusy : s.bank.busy = true) (h : seqStep s = .next t)
    (hdone : t.bank.busy = false) : WritesResults (decode (.command s.seq.cmd)) s.bank t := by
  have haccepted : s.seq.st ≠ .idle → ∃ i, decode (.command s.seq.cmd) = .ok i := by
    intro hst
    obtain ⟨i, -, -, -, hi, -⟩ := (hinv.inFlight hst).loaded
    exact ⟨i, hi⟩
  rcases seqStep_cases h with rfl | ⟨-, -, hdispatch⟩ | ⟨-, b, len, rfl, -⟩ | ⟨-, rfl⟩ | ⟨hst, b, held, htake⟩ |
    ⟨hst, hfinish⟩
  · simp [hbusy] at hdone
  · exact seqDispatch_writesResults hbusy hdispatch hdone
  · simp [hbusy] at hdone
  · simp [hbusy] at hdone
  · rcases htake with ⟨-, rfl⟩ | ⟨-, hvalidate⟩
    · simp [hbusy] at hdone
    · obtain ⟨i, hi⟩ := haccepted (by simp [hst])
      rcases validate_cases hvalidate with ⟨raw, hfinish⟩ | ⟨hi, lo, chk, rfl⟩ | ⟨-, echo, rfl⟩
      · rw [hi]
        exact finish_writesResults (s := txnReadOk raw (rxTake b held s)) hbusy hi hfinish hdone
      · simp [hbusy] at hdone
      · simp [hbusy] at hdone
  · obtain ⟨i, hi⟩ := haccepted (by simp [hst])
    rw [hi]
    exact finish_writesResults hbusy hi hfinish hdone

end Results

/-- Settles O39, by the transitions of the Sequencer that can clear `BUSY`. -/
theorem eachCommandWritesOnlyItsResults : Obligations.EachCommandWritesOnlyItsResults := by
  intro s t hinv hevent hbusy hstep hdone
  obtain ⟨hseq, hbank, -, -⟩ := nextEvent_keeps_block s
  have hresults := seqStep_writesResults (inv_of_kept hinv hseq hbank) (hbank ▸ hbusy) (seqStep_of_step hevent hstep) hdone
  rw [hseq, hbank] at hresults
  exact hresults

end Sys2Proof.Machine

/-! PROOFS. The Host's accesses against its duties (20_memory.md R60, 60_exceptions.md R204), and a block without a command
in flight (20_memory.md R71, R72). -/

namespace Sys2Proof.Machine

section HostBank

variable {s t : State}

/-- The five words of the bank stand at the aligned offsets up to `0x13` (10_state.md R24). -/
theorem exists_bankWord_iff (off : Nat) (b : BankRegs) :
    (∃ v, bankWord off b = some v) ↔ off % 4 = 0 ∧ off ≤ 0x13 := by
  constructor
  · rintro ⟨v, hv⟩
    have hword : off = 0x00 ∨ off = 0x04 ∨ off = 0x08 ∨ off = 0x0C ∨ off = 0x10 := by
      by_contra! hnone
      simp [bankWord, hnone] at hv
    omega
  · rintro ⟨haligned, hin⟩
    obtain rfl | rfl | rfl | rfl | rfl : off = 0x00 ∨ off = 0x04 ∨ off = 0x08 ∨ off = 0x0C ∨ off = 0x10 := by omega
    all_goals exact ⟨_, rfl⟩

/-- An access is answered exactly where the Host keeps its duties. -/
theorem hostKeepsDuties_iff (a : HostAccess) (s : State) :
    hostKeepsDuties a s = true ↔ ∃ t, hostAct a s = .next t := by
  cases a with
  | read off bytes =>
    simp only [hostKeepsDuties, Bool.and_eq_true, decide_eq_true_eq, and_assoc]
    constructor
    · rintro ⟨rfl, hin⟩
      obtain ⟨v, hv⟩ := (exists_bankWord_iff off s.bank).mpr hin
      exact ⟨_, by rw [hostAct, hostRead, if_pos rfl, hv]⟩
    · rintro ⟨t, ht⟩
      obtain ⟨v, hbytes, hv, -⟩ := hostRead_cases ht
      exact ⟨hbytes, (exists_bankWord_iff off s.bank).mp ⟨v, hv⟩⟩
  | write off bytes w =>
    simp only [hostKeepsDuties, Bool.and_eq_true, decide_eq_true_eq, Bool.not_eq_true', and_assoc]
    constructor
    · rintro ⟨rfl, rfl, hfree⟩
      exact ⟨accept w s, by simp [hostAct, hostWrite_cmd, hfree]⟩
    · rintro ⟨t, ht⟩
      obtain ⟨hbytes, hoff, hfree, -⟩ := hostWrite_cases ht
      exact ⟨hbytes, hoff, hfree⟩

/-- A read that is not answered is a `BadHostAccess`. -/
theorem hostRead_fault {off bytes : Nat} (h : ¬∃ t, hostRead off bytes s = .next t) :
    hostRead off bytes s = .fault .badHostAccess := by
  unfold hostRead at h ⊢
  split
  · rename_i h4
    cases hv : bankWord off s.bank with
    | some v => exact absurd ⟨_, by rw [if_pos h4, hv]⟩ h
    | none => rfl
  · rfl

/-- A write that is not answered is a `BusyViolation` where it is a whole word to `CMD`, else a `BadHostAccess`. -/
theorem hostWrite_fault {off bytes : Nat} {w : Word} (h : ¬∃ t, hostWrite off bytes w s = .next t) :
    hostWrite off bytes w s = .fault (if off = 0x00 ∧ bytes = 4 then .busyViolation else .badHostAccess) := by
  by_cases hcmd : off = 0x00 ∧ bytes = 4
  · obtain ⟨rfl, rfl⟩ := hcmd
    cases hbusy : s.bank.busy with
    | true => simp [hostWrite_cmd, hbusy]
    | false => exact absurd ⟨accept w s, by simp [hostWrite_cmd, hbusy]⟩ h
  · rw [if_neg hcmd, hostWrite, if_neg (mt And.symm hcmd)]

/-- In `IDLE` with `BUSY` = 0 the Sequencer has no transition (41_transaction_engine.md R130). -/
theorem seqStep_free (hidle : s.seq.st = .idle) (hfree : s.bank.busy = false) : seqStep s = .next s := by
  simp [seqStep, hidle, hfree]

/-- With no command in flight the Sequencer's event keeps the block. -/
theorem blockKept_of_free (hinv : Inv s) (hfree : s.bank.busy = false) (hstep : seqStep s = .next t) : BlockKept s t := by
  rw [seqStep_free (idle_of_free hinv hfree) hfree] at hstep
  cases hstep
  exact ⟨rfl, rfl, rfl, rfl⟩

end HostBank

/-- Settles O3: a breach is an access without an answer, and an access without an answer is one of the two faults. -/
theorem hostAccessesFaultExactlyOutsideTheDuties : Obligations.HostAccessesFaultExactlyOutsideTheDuties := by
  intro a s
  refine ⟨hostKeepsDuties_iff a s, fun hbreach => ?_⟩
  have hnone : ¬∃ t, hostAct a s = .next t := by
    rw [← hostKeepsDuties_iff, hbreach]
    exact Bool.false_ne_true
  cases a with
  | read off bytes => exact hostRead_fault hnone
  | write off bytes w => exact hostWrite_fault hnone

/-- Settles O44: with `BUSY` = 0 the Sequencer is in `IDLE` and has no transition, an accept would set `BUSY`, and the other
agents keep the block. -/
theorem resultsStandUntilTheNextAccept : Obligations.ResultsStandUntilTheNextAccept := by
  intro s t hinv hfree hstep hstillFree hnotReset
  obtain ⟨hseq, hbank, hlog, hsent⟩ := nextEvent_keeps_block s
  rcases step_cases hstep with ⟨-, hseqStep⟩ | hkept | ⟨hacc, -⟩ | ⟨hreset, -⟩
  · have hkept := blockKept_of_free (inv_of_kept hinv hseq hbank) (hbank ▸ hfree) hseqStep
    exact ⟨hkept.bank.trans hbank, hkept.seq.trans hseq, hkept.log.trans hlog, hkept.sent.trans hsent⟩
  · exact ⟨hkept.bank, hkept.seq, hkept.log, hkept.sent⟩
  · simp [hacc.bank] at hstillFree
  · exact absurd hreset hnotReset

end Sys2Proof.Machine

/-! PROOFS. The request frame in the buffer is the one its bytes decode to, so that the byte handed over is the buffer's. -/

namespace Sys2Proof.Machine

/-- An address byte with the read flag is that of its seven address bits (40_frame_codec.md R111). -/
theorem addressByte_read_setWidth {abyte : Byte} (h : abyte.getLsbD 7 = true) :
    addressByte (abyte.setWidth 7) .read = abyte := by
  apply BitVec.eq_of_getLsbD_eq
  intro i hi
  obtain rfl | hlow : i = 7 ∨ i < 7 := by omega
  · simp [addressByte, h]
  · have hflag : (0x80 : Byte).getLsbD i = false := by
      rw [show (0x80 : Byte) = BitVec.twoPow 8 7 from rfl, BitVec.getLsbD_twoPow]
      simp [show ¬7 = i by omega]
    rw [addressByte, BitVec.getLsbD_or, hflag]
    simp [hlow, hi]

/-- An address byte without the read flag is that of its seven address bits (40_frame_codec.md R111). -/
theorem addressByte_write_setWidth {abyte : Byte} (h : abyte.getLsbD 7 = false) :
    addressByte (abyte.setWidth 7) .write = abyte := by
  apply BitVec.eq_of_getLsbD_eq
  intro i hi
  obtain rfl | hlow : i = 7 ∨ i < 7 := by omega
  · rw [h]
    simp [addressByte]
  · simp [addressByte, hlow, hi]

/-- The first request frame of a byte stream is the encoding of its instruction, and the rest follows it. -/
theorem decodeRequest_frame {bs rest : List Byte} {i : Instr} (h : decodeRequest bs = .ok (i, rest)) :
    (∃ addr, i = .frameRdReq addr ∧ bs = encodeRead addr ++ rest) ∨
    (∃ addr data, i = .frameWrReq addr data ∧ bs = encodeWrite addr data ++ rest) := by
  unfold decodeRequest at h
  split at h
  · rename_i first abyte tail
    split at h
    · rename_i hsentinel
      split at h
      · rename_i hread
        cases h
        exact .inl ⟨_, rfl, by simp [encodeRead, addressByte_read_setWidth hread, hsentinel]⟩
      · rename_i hwrite
        have habyte := addressByte_write_setWidth (Bool.eq_false_of_not_eq_true hwrite)
        split at h
        · split at h
          · rename_i hchk
            cases h
            exact .inr ⟨_, _, rfl, by simp [encodeWrite, habyte, hsentinel, hchk]⟩
          · cases h
        · cases h
    · cases h
  · cases h

/-- Request bytes that decode are the encoding of their instruction, with nothing after it. -/
theorem decode_request_frame {bs : List Byte} {i : Instr} (h : decode (.request bs) = .ok i) :
    (∃ addr, i = .frameRdReq addr ∧ bs = encodeRead addr) ∨
    (∃ addr data, i = .frameWrReq addr data ∧ bs = encodeWrite addr data) := by
  have hfirst : decodeRequest bs = .ok (i, []) := by
    simp only [decode] at h
    split at h
    · rename_i hj
      cases h
      exact hj
    · cases h
    · cases h
  simpa using decodeRequest_frame hfirst

/-- `TX` waits, or hands over the buffer's byte at the index (41_transaction_engine.md R133). -/
theorem seqTransmit_byte {s t : State} (h : seqTransmit s = .next t) :
    t = s ∨ ∃ b len, 0 < s.link.txRoom ∧ s.seq.tx.toList[s.seq.txIdx.toNat]? = some b ∧
      t = txAdvance len (txSend b s) := by
  have hsend : ∃ frame len, (∃ tail, frame ++ tail = s.seq.tx.toList) ∧ transmit frame len s = .next t := by
    unfold seqTransmit at h
    split at h
    · rename_i i hi
      rcases decode_request_frame hi with ⟨addr, rfl, hframe⟩ | ⟨addr, data, rfl, hframe⟩
      · exact ⟨_, 2, ⟨_, hframe ▸ List.take_append_drop ..⟩, h⟩
      · exact ⟨_, 5, ⟨_, hframe ▸ List.take_append_drop ..⟩, h⟩
    · exact ⟨_, _, ⟨[], List.append_nil _⟩, h⟩
  obtain ⟨frame, len, ⟨tail, htail⟩, htx⟩ := hsend
  rcases transmit_cases htx with ⟨-, rfl⟩ | ⟨b, hroom, hbyte, rfl⟩
  · exact .inl rfl
  · obtain ⟨hlt, -⟩ := List.getElem?_eq_some_iff.mp hbyte
    have hbuffer : s.seq.tx.toList[s.seq.txIdx.toNat]? = some b := by
      rw [← htail, List.getElem?_append_left hlt, hbyte]
    exact .inr ⟨b, len, Nat.pos_of_ne_zero hroom, hbuffer, rfl⟩

end Sys2Proof.Machine

/-! PROOFS. What a step does to the Link: a byte is handed over in `TX` alone, and a byte held is taken in `RX` alone
(20_memory.md R66 to R68). -/

namespace Sys2Proof.Machine

/-- The Link and the response buffer of `t` are those of `s`: no byte has passed either way. -/
structure LinkKept (s t : State) : Prop where
  link : t.link = s.link
  rx   : t.seq.rx = s.seq.rx

section Kept

variable {s t : State}

theorem linkKept_startTxn (kind : TxnKind) (addr : RegAddr) (data : RegVal) (s : State) :
    LinkKept s (startTxn kind addr data s) := by
  cases kind <;> exact ⟨rfl, rfl⟩

theorem linkKept_playEntry (table : List InitEntry) (n : Nat) (s : State) :
    LinkKept s (playEntry table (setInitIdx n s)) := by
  rcases playEntry_cases table (setInitIdx n s) with ⟨e, -, hplay⟩ | ⟨-, hplay⟩
  · rw [hplay]
    exact ⟨rfl, rfl⟩
  · rw [hplay]
    exact ⟨rfl, rfl⟩

theorem linkKept_seqDispatch (h : seqDispatch s = .next t) : LinkKept s t := by
  rcases seqDispatch_cases h with ⟨e, -, rfl⟩ | ⟨data, tag, div, -, rfl⟩ | ⟨-, rfl⟩ | ⟨i, kind, addr, data, -, -, rfl⟩
  · exact ⟨rfl, rfl⟩
  · exact ⟨rfl, rfl⟩
  · exact linkKept_playEntry _ _ s
  · exact linkKept_startTxn kind addr data s

theorem linkKept_finish (h : finish s = .next t) : LinkKept s t := by
  rcases finish_cases h with ⟨-, rfl⟩ | ⟨-, rfl⟩ | ⟨-, tag, div, -, -, rfl⟩ | ⟨-, rfl⟩ | ⟨-, rfl⟩
  · exact ⟨rfl, rfl⟩
  · exact ⟨rfl, rfl⟩
  · exact ⟨rfl, rfl⟩
  · exact linkKept_playEntry _ _ s
  · exact ⟨rfl, rfl⟩

theorem linkKept_validate (h : validate s = .next t) : LinkKept s t := by
  rcases validate_cases h with ⟨raw, hfinish⟩ | ⟨hi, lo, chk, rfl⟩ | ⟨-, echo, rfl⟩
  · obtain ⟨hlink, hrx⟩ := linkKept_finish hfinish
    exact ⟨hlink, hrx⟩
  · exact ⟨rfl, rfl⟩
  · exact ⟨rfl, rfl⟩

/-- `RX` waits, or takes the oldest byte that the Link holds. -/
theorem seqReceive_takes (h : seqReceive s = .next t) :
    t = s ∨ ∃ b held, s.link.rxHeld = b :: held ∧ LinkKept (rxTake b held s) t := by
  rcases seqReceive_cases h with ⟨-, rfl⟩ | ⟨b, held, hheld, -, ⟨-, rfl⟩ | ⟨-, hvalidate⟩⟩
  · exact .inl rfl
  · exact .inr ⟨b, held, hheld, rfl, rfl⟩
  · exact .inr ⟨b, held, hheld, linkKept_validate hvalidate⟩

@[simp] theorem txAdvance_link (len : BitVec 3) (s : State) : (txAdvance len s).link = s.link := by
  rcases txAdvance_cases len s with ⟨-, h⟩ | ⟨-, h⟩ <;> rw [h]

@[simp] theorem txAdvance_txIdx (len : BitVec 3) (s : State) : (txAdvance len s).seq.txIdx = s.seq.txIdx + 1 := by
  rcases txAdvance_cases len s with ⟨-, h⟩ | ⟨-, h⟩ <;> rw [h]

end Kept

/-- What an event of an agent can do to the Link, from the Sequencer's registers `q` and the Link `l` to the state `t`. -/
inductive LinkChange (e : Event) (q : SeqRegs) (l : LinkState) (t : State) : Prop where
  | kept (hlink : t.link = l)
  | accepts (hevent : e = .linkAccepts) (hlink : t.link = { l with txRoom := l.txRoom + 1 })
  | delivers (b : Byte) (hevent : e = .linkDelivers b) (hlink : t.link = { l with rxHeld := l.rxHeld ++ [b] })
  | sends (b : Byte) (hevent : e = .sequencer) (hst : q.st = .tx) (hroom : 0 < l.txRoom)
      (hbyte : q.tx.toList[q.txIdx.toNat]? = some b) (hidx : t.seq.txIdx = q.txIdx + 1)
      (hlink : t.link = { l with txRoom := l.txRoom - 1, txStream := l.txStream ++ [b] })
  | takes (b : Byte) (held : List Byte) (hevent : e = .sequencer) (hst : q.st = .rx) (hheld : l.rxHeld = b :: held)
      (hrx : t.seq.rx = q.rx.setIfInBounds q.rxCnt.toNat b) (hlink : t.link = { l with rxHeld := held })

section Change

variable {s t : State}

theorem linkChange_seqStep (h : seqStep s = .next t) : LinkChange .sequencer s.seq s.link t := by
  unfold seqStep at h
  split at h
  · split at h
    · exact .kept (linkKept_seqDispatch h).link
    · cases h
      exact .kept rfl
  · rename_i hst
    rcases seqTransmit_byte h with rfl | ⟨b, len, hroom, hbyte, rfl⟩
    · exact .kept rfl
    · exact .sends b rfl hst hroom hbyte (txAdvance_txIdx ..) (txAdvance_link ..)
  · cases h
    exact .kept rfl
  · rename_i hst
    rcases seqReceive_takes h with rfl | ⟨b, held, hheld, hlink, hrx⟩
    · exact .kept rfl
    · exact .takes b held rfl hst hheld hrx hlink
  · exact .kept (linkKept_finish h).link

/-- The Host reaches the bank only, never the Link. -/
theorem hostRead_link {off bytes : Nat} (h : hostRead off bytes s = .next t) : t.link = s.link := by
  obtain ⟨v, -, -, rfl⟩ := hostRead_cases h
  rfl

theorem hostWrite_link {off bytes : Nat} {w : Word} (h : hostWrite off bytes w s = .next t) : t.link = s.link := by
  obtain ⟨-, -, -, rfl⟩ := hostWrite_cases h
  rfl

theorem hostAct_link {a : HostAccess} (h : hostAct a s = .next t) : t.link = s.link := by
  cases a with
  | read off bytes => exact hostRead_link h
  | write off bytes w => exact hostWrite_link h

theorem hostProgramStep_link (h : hostProgramStep s = .next t) : t.link = s.link := by
  unfold hostProgramStep at h
  split at h
  · split at h
    · rename_i hread
      cases h
      exact (pollSeen_link _).trans (hostRead_link hread)
    · cases h
    · cases h
  · split at h
    · cases h
      rfl
    · have hlink := hostWrite_link h
      exact hlink
    · split at h
      · rename_i hread
        cases h
        have hlink := hostRead_link hread
        exact (recordObservation_link _).trans hlink
      · cases h
      · cases h

theorem linkChange_act {e : Event} (h : act e s = .next t) : LinkChange e s.seq s.link t := by
  cases e with
  | sequencer => exact linkChange_seqStep h
  | linkAccepts => cases h; exact .accepts rfl rfl
  | linkDelivers b => cases h; exact .delivers b rfl rfl
  | hostAccess a => exact .kept (hostAct_link h)
  | hostLoads st => cases h; exact .kept rfl
  | hostProgram => exact .kept (hostProgramStep_link h)
  | reset => cases h; exact .kept rfl

/-- Choosing the event touches neither the Sequencer nor the Link. -/
theorem linkChange_step (h : step s = .next t) : LinkChange (nextEvent s).1 s.seq s.link t := by
  obtain ⟨hseq, -, hlink, -, -⟩ := nextEvent_frame s
  rw [← hseq, ← hlink]
  exact linkChange_act h

end Change

/-- Settles O46, by what a step can do to the Link: its other changes leave the bytes sent. -/
theorem onlyTheTransmitStateSends : Obligations.OnlyTheTransmitStateSends := by
  intro s t hstep
  cases linkChange_step hstep with
  | kept hlink | accepts _ hlink | delivers _ _ hlink | takes _ _ _ _ _ _ hlink => exact .inl (by rw [hlink])
  | sends b hevent hst hroom hbyte hidx hlink => exact .inr ⟨b, hevent, hst, hroom, hbyte, hidx, by rw [hlink]⟩

/-- Settles O47, by what a step can do to the Link: its other changes leave the bytes held. -/
theorem receivedBytesAreNeverFlushed : Obligations.ReceivedBytesAreNeverFlushed := by
  intro s t hstep
  cases linkChange_step hstep with
  | kept hlink | accepts _ hlink | sends _ _ _ _ _ _ hlink => exact .inl (by rw [hlink])
  | delivers b hevent hlink => exact .inr (.inl ⟨b, hevent, by rw [hlink]⟩)
  | takes b held hevent hst hheld hrx hlink => exact .inr (.inr ⟨b, hevent, hst, by rw [hheld, hlink], hrx⟩)

end Sys2Proof.Machine

/-! PROOFS. Decoder and encoder are inverse to each other (30_encoding.md R80 to R94): on codes, with the fields
of a legal command word (R84, R85), on opcode-table words and on streams of request frames. -/

namespace Sys2Proof.Machine

/-! ### Decoding what was encoded -/

/-- Bit 7 of the address byte is the read flag (40_frame_codec.md R111). -/
@[simp] theorem addressByte_getElem_seven (addr : RegAddr) (kind : TxnKind) :
    (addressByte addr kind)[7] = decide (kind = .read) := by
  cases kind <;> simp [addressByte]

/-- Bits 6:0 of the address byte are the address (40_frame_codec.md R111). -/
@[simp] theorem setWidth_addressByte (addr : RegAddr) (kind : TxnKind) : (addressByte addr kind).setWidth 7 = addr := by
  cases kind with
  | read =>
    have hflag : (0x80 : Byte).setWidth 7 = 0 := by decide
    rw [addressByte, BitVec.setWidth_or, hflag]
    simp
  | write => simp [addressByte]

/-- A legal tag and divisor are read back from their codes (30_encoding.md R84). -/
theorem decodeRule_commandWord {tag : Tag} {div : Div} (hpair : pairLegal tag div = true) (opc : BitVec 4)
    (addr : RegAddr) (data : RegVal) :
    decodeRule (commandWord opc (codeOfDiv div) (codeOfTag tag) addr data) = .ok (tag, div) := by
  simp [decodeRule, hpair]

/-- A read request is read back, whatever follows it. -/
theorem decodeRequest_encodeRead (addr : RegAddr) (rest : List Byte) :
    decodeRequest (encodeRead addr ++ rest) = .ok (.frameRdReq addr, rest) := by
  simp [encodeRead, decodeRequest]

/-- A write request is read back, whatever follows it. -/
theorem decodeRequest_encodeWrite (addr : RegAddr) (data : RegVal) (rest : List Byte) :
    decodeRequest (encodeWrite addr data ++ rest) = .ok (.frameWrReq addr data, rest) := by
  simp [encodeWrite, decodeRequest]

/-- The first frame of a byte stream is the whole code if nothing follows it. -/
theorem decode_request_of_whole {bs : List Byte} {i : Instr} (h : decodeRequest bs = .ok (i, [])) :
    decode (.request bs) = .ok i := by
  simp [decode, h]

/-- Settles O7, row by row: a command by the fields of its word, a request by its first frame. -/
theorem decodeOfEncodeIsTheInstruction : Obligations.DecodeOfEncodeIsTheInstruction := by
  intro i hwf
  cases i with
  | rdreg addr => simp [encode, decode, decodeCommand]
  | wrreg addr data => simp [encode, decode, decodeCommand]
  | rddec addr tag div => simp [encode, decode, decodeCommand, decodeRule_commandWord hwf]
  | decode data tag div => simp [encode, decode, decodeCommand, decodeRule_commandWord hwf]
  | beginInit => simp [encode, decode, decodeCommand]
  | calerr => simp [encode, decode, decodeCommand]
  | frameRdReq addr => exact decode_request_of_whole (decodeRequest_encodeRead addr [])
  | frameWrReq addr data => exact decode_request_of_whole (decodeRequest_encodeWrite addr data [])
  | frameRdResp hi lo chk => rfl
  | frameWrAck echo => rfl

/-! ### Legality on the fields of a word -/

/-- The codes of `TAG` and `DIV` that a decoding command admits (30_encoding.md R84, R85). -/
def RuleLegal (tag : BitVec 2) (div : BitVec 3) : Prop :=
  (tag = 0 ∧ div = 0) ∨ ((tag = 1 ∨ tag = 2) ∧ div.toNat ≤ 5)

/-- `legal(w)` of 30_encoding.md R85 on the fields of the word, each mask as the fields it covers. -/
def FieldsLegal (w : Word) : Prop :=
  (opcOf w = 1 ∧ divCodeOf w = 0 ∧ tagCodeOf w = 0 ∧ dataOf w = 0) ∨
  (opcOf w = 2 ∧ divCodeOf w = 0 ∧ tagCodeOf w = 0) ∨
  (opcOf w = 3 ∧ dataOf w = 0 ∧ RuleLegal (tagCodeOf w) (divCodeOf w)) ∨
  (opcOf w = 4 ∧ addrOf w = 0 ∧ RuleLegal (tagCodeOf w) (divCodeOf w)) ∨
  (opcOf w = 5 ∧ divCodeOf w = 0 ∧ tagCodeOf w = 0 ∧ addrOf w = 0 ∧ dataOf w = 0) ∨
  (opcOf w = 6 ∧ divCodeOf w = 0 ∧ tagCodeOf w = 0 ∧ addrOf w = 0 ∧ dataOf w = 0)

/-- The codes that are not admitted are the reserved ones and a scaled `RAW` (30_encoding.md R87). -/
theorem ruleLegal_iff_not_reserved : ∀ (tag : BitVec 2) (div : BitVec 3),
    RuleLegal tag div ↔ ¬(tag = 3 ∨ div = 6 ∨ div = 7 ∨ (tag = 0 ∧ div ≠ 0)) := by
  unfold RuleLegal
  decide

/-- A tag and a divisor are a legal pair exactly if their codes are. -/
theorem ruleLegal_codes_iff (tag : Tag) (div : Div) :
    RuleLegal (codeOfTag tag) (codeOfDiv div) ↔ pairLegal tag div = true := by
  unfold RuleLegal
  cases tag <;> cases div <;> decide

/-- Legal codes are those of a legal pair. -/
theorem RuleLegal.exists_pair {tag : BitVec 2} {div : BitVec 3} (h : RuleLegal tag div) :
    ∃ t d, tag = codeOfTag t ∧ div = codeOfDiv d ∧ pairLegal t d = true := by
  have htag : ∃ t, tagOfCode tag = some t := by
    rcases h with ⟨rfl, -⟩ | ⟨rfl | rfl, -⟩ <;> exact ⟨_, rfl⟩
  have hdiv : ∃ d, divOfCode div = some d := by
    have hle : div.toNat ≤ 5 := by
      rcases h with ⟨-, rfl⟩ | ⟨-, hle⟩
      · decide
      · exact hle
    rw [← Option.isSome_iff_exists]
    clear h htag
    revert div
    decide
  obtain ⟨t, ht⟩ := htag
  obtain ⟨d, hd⟩ := hdiv
  obtain rfl := codeOfTag_of_tagOfCode ht
  obtain rfl := codeOfDiv_of_divOfCode hd
  exact ⟨t, d, rfl, rfl, (ruleLegal_codes_iff t d).mp h⟩

/-- The word of a well-formed command is legal, and a legal word is that of a well-formed command. -/
theorem fieldsLegal_iff_encoding (w : Word) : FieldsLegal w ↔ ∃ i : Instr, i.wf = true ∧ encode i = .command w := by
  constructor
  · intro h
    have hw := commandWord_fields w
    rcases h with ⟨hopc, hdiv, htag, hdata⟩ | ⟨hopc, hdiv, htag⟩ | ⟨hopc, hdata, hrule⟩ | ⟨hopc, haddr, hrule⟩ |
      ⟨hopc, hdiv, htag, haddr, hdata⟩ | ⟨hopc, hdiv, htag, haddr, hdata⟩
    · rw [hopc, hdiv, htag, hdata] at hw
      exact ⟨.rdreg _, rfl, congrArg Code.command hw⟩
    · rw [hopc, hdiv, htag] at hw
      exact ⟨.wrreg _ _, rfl, congrArg Code.command hw⟩
    · obtain ⟨tag, div, htag, hdiv, hpair⟩ := hrule.exists_pair
      rw [hopc, hdiv, htag, hdata] at hw
      exact ⟨.rddec _ tag div, hpair, congrArg Code.command hw⟩
    · obtain ⟨tag, div, htag, hdiv, hpair⟩ := hrule.exists_pair
      rw [hopc, hdiv, htag, haddr] at hw
      exact ⟨.decode _ tag div, hpair, congrArg Code.command hw⟩
    · rw [hopc, hdiv, htag, haddr, hdata] at hw
      exact ⟨.beginInit, rfl, congrArg Code.command hw⟩
    · rw [hopc, hdiv, htag, haddr, hdata] at hw
      exact ⟨.calerr, rfl, congrArg Code.command hw⟩
  · rintro ⟨i, hwf, henc⟩
    cases i with
    | frameRdReq | frameWrReq | frameRdResp | frameWrAck => cases henc
    | rdreg | wrreg | beginInit | calerr =>
      cases henc
      simp [FieldsLegal]
    | rddec addr tag div | decode data tag div =>
      cases henc
      simp [FieldsLegal, (ruleLegal_codes_iff tag div).mpr hwf]

/-! ### Encoding what was decoded -/

/-- The codes of a decoded rule are legal. -/
theorem ruleLegal_of_decodeRule {w : Word} {tag : Tag} {div : Div} (h : decodeRule w = .ok (tag, div)) :
    RuleLegal (tagCodeOf w) (divCodeOf w) := by
  obtain ⟨htag, hdiv, hpair⟩ := decodeRule_cases h
  rw [← codeOfTag_of_tagOfCode htag, ← codeOfDiv_of_divOfCode hdiv]
  exact (ruleLegal_codes_iff tag div).mpr hpair

/-- The fields of a command word that decodes are legal. -/
theorem fieldsLegal_of_decodeCommand {w : Word} {i : Instr} (h : decodeCommand w = .ok i) : FieldsLegal w := by
  unfold decodeCommand at h
  split_ifs at h
  case pos hopc hzero => exact .inl ⟨hopc, hzero⟩
  case pos hopc hzero => exact .inr (.inl ⟨hopc, hzero⟩)
  case pos hopc hdata =>
    split at h
    · rename_i hrule
      exact .inr (.inr (.inl ⟨hopc, hdata, ruleLegal_of_decodeRule hrule⟩))
    · cases h
  case pos hopc haddr =>
    split at h
    · rename_i hrule
      exact .inr (.inr (.inr (.inl ⟨hopc, haddr, ruleLegal_of_decodeRule hrule⟩)))
    · cases h
  case pos hopc hzero => exact .inr (.inr (.inr (.inr (.inl ⟨hopc, hzero⟩))))
  case pos hopc hzero => exact .inr (.inr (.inr (.inr (.inr ⟨hopc, hzero⟩))))

/-- A command word that decodes encodes its instruction: its fields are legal, so it encodes one, and O7 reads that back. -/
theorem encode_of_decodeCommand {w : Word} {i : Instr} (h : decodeCommand w = .ok i) :
    encode i = .command w ∧ i.wf = true := by
  obtain ⟨j, hwf, henc⟩ := (fieldsLegal_iff_encoding w).mp (fieldsLegal_of_decodeCommand h)
  have hdecode : decodeCommand w = .ok j := by
    have hj := decodeOfEncodeIsTheInstruction j hwf
    rwa [henc] at hj
  cases h.symm.trans hdecode
  exact ⟨henc, hwf⟩

/-- Three bytes received after a read request are a response, and no other number is (30_encoding.md R92, R93). -/
theorem decode_readResponse_cases {bs : List Byte} {i : Instr} (h : decode (.readResponse bs) = .ok i) :
    ∃ hi lo chk, bs = [hi, lo, chk] ∧ i = .frameRdResp hi lo chk := by
  match bs, h with
  | [hi, lo, chk], h => cases h; exact ⟨hi, lo, chk, rfl, rfl⟩
  | [], h | [_], h | [_, _], h | _ :: _ :: _ :: _ :: _, h => cases h

/-- One byte received after a write request is an acknowledgment, and no other number is (30_encoding.md R92, R93). -/
theorem decode_writeAck_cases {bs : List Byte} {i : Instr} (h : decode (.writeAck bs) = .ok i) :
    ∃ echo, bs = [echo] ∧ i = .frameWrAck echo := by
  match bs, h with
  | [echo], h => cases h; exact ⟨echo, rfl, rfl⟩
  | [], h | _ :: _ :: _, h => cases h

/-- Settles O8, by the place of the code: a command word by its fields, a request by its bytes. -/
theorem encodeOfDecodeIsTheCode : Obligations.EncodeOfDecodeIsTheCode := by
  intro c i h
  cases c with
  | command w => exact encode_of_decodeCommand h
  | request bs =>
    rcases decode_request_frame h with ⟨addr, rfl, rfl⟩ | ⟨addr, data, rfl, rfl⟩ <;> exact ⟨rfl, rfl⟩
  | readResponse bs =>
    obtain ⟨hi, lo, chk, rfl, rfl⟩ := decode_readResponse_cases h
    exact ⟨rfl, rfl⟩
  | writeAck bs =>
    obtain ⟨echo, rfl, rfl⟩ := decode_writeAck_cases h
    exact ⟨rfl, rfl⟩

/-- A code decodes exactly if it is the encoding of a well-formed instruction. -/
theorem exists_decode_iff_encoding (c : Code) :
    (∃ i, decode c = .ok i) ↔ ∃ i : Instr, i.wf = true ∧ encode i = c := by
  constructor
  · rintro ⟨i, h⟩
    obtain ⟨henc, hwf⟩ := encodeOfDecodeIsTheCode c i h
    exact ⟨i, hwf, henc⟩
  · rintro ⟨i, hwf, rfl⟩
    exact ⟨i, decodeOfEncodeIsTheInstruction i hwf⟩

/-- Settles O12: each word is built from the fields of its command, which O7 reads back. -/
theorem specExampleWordsAreTheirCommands : Obligations.SpecExampleWordsAreTheirCommands := by
  intro p hp
  have henc : encode p.1 = .command p.2 ∧ p.1.wf = true := by
    revert p
    decide
  exact ⟨henc.1, henc.1 ▸ decodeOfEncodeIsTheInstruction p.1 henc.2⟩

/-! ### Opcode-table words -/

/-- The number of bytes, one byte added after them. -/
theorem natOfBytes_append_singleton (bs : List Byte) (b : Byte) :
    natOfBytes (bs ++ [b]) = natOfBytes bs * 256 + b.toNat := by
  simp [natOfBytes]

/-- The bytes of a number, the last one split off. -/
theorem bytesOfNat_succ (n w : Nat) : bytesOfNat (n + 1) w = bytesOfNat n (w / 256) ++ [BitVec.ofNat 8 w] := by
  induction n with
  | zero => simp [bytesOfNat]
  | succ n ih =>
    have hshift : w >>> (8 * (n + 1)) = (w / 256) >>> (8 * n) := by
      rw [show w / 256 = w >>> 8 from (Nat.shiftRight_eq_div_pow w 8).symm, ← Nat.shiftRight_add]
      congr 1
      omega
    rw [bytesOfNat, ih, hshift, bytesOfNat, List.cons_append]

/-- The bytes of the number of a list of bytes are the list. -/
@[simp] theorem bytesOfNat_natOfBytes (bs : List Byte) : bytesOfNat bs.length (natOfBytes bs) = bs := by
  induction bs using List.reverseRecOn with
  | nil => rfl
  | append_singleton bs b ih =>
    have hlt := b.isLt
    have hfront : (natOfBytes bs * 256 + b.toNat) / 256 = natOfBytes bs := by omega
    have hlast : BitVec.ofNat 8 (natOfBytes bs * 256 + b.toNat) = b := by
      apply BitVec.eq_of_toNat_eq
      rw [BitVec.toNat_ofNat]
      omega
    rw [natOfBytes_append_singleton, List.length_append, List.length_singleton, bytesOfNat_succ, hfront, hlast, ih]

/-- The number of a command word, of 32 bits, stands for the word. -/
theorem codeOfTableWord_toNat (w : Word) : codeOfTableWord 32 w.toNat = some (.command w) := by
  simp [codeOfTableWord]

/-- The table word of an instruction, of its row's width, stands for its encoding. -/
theorem codeOfTableWord_encode (i : Instr) : codeOfTableWord i.tableBits (encode i).tableWord = some (encode i) := by
  cases i with
  | rdreg | wrreg | rddec | decode | beginInit | calerr => exact codeOfTableWord_toNat _
  | frameRdReq addr => exact congrArg (some ∘ Code.request) (bytesOfNat_natOfBytes (encodeRead addr))
  | frameWrReq addr data => exact congrArg (some ∘ Code.request) (bytesOfNat_natOfBytes (encodeWrite addr data))
  | frameRdResp hi lo chk => exact congrArg (some ∘ Code.readResponse) (bytesOfNat_natOfBytes [hi, lo, chk])
  | frameWrAck echo => exact congrArg (some ∘ Code.writeAck) (bytesOfNat_natOfBytes [echo])

/-- Settles O9: the table word stands for the encoding, which O7 reads back. -/
theorem tableWordOfAnInstructionIsReadBack : Obligations.TableWordOfAnInstructionIsReadBack := by
  intro i hwf
  simp [decodeTableWord, codeOfTableWord_encode, decodeOfEncodeIsTheInstruction i hwf]

/-! ### Streams of request frames -/

/-- A stream is read by its first frame, and then the bytes after it. -/
theorem decodeRequests_succ {n : Nat} {bs rest : List Byte} {i : Instr} {is : List Instr}
    (hfirst : decodeRequest bs = .ok (i, rest)) (hrest : decodeRequests n rest = .ok is) :
    decodeRequests (n + 1) bs = .ok (i :: is) := by
  cases bs with
  | nil => cases hfirst
  | cons b bs => simp [decodeRequests, hfirst, hrest]

/-- Settles O13, by induction on the frames: the first frame is read back whatever follows it. -/
theorem requestStreamsAreReadBackByLength : Obligations.RequestStreamsAreReadBackByLength := by
  intro frames hreq
  induction frames with
  | nil => rfl
  | cons i frames ih =>
    obtain ⟨hi, hframes⟩ := List.forall_mem_cons.mp hreq
    rw [List.flatMap_cons, List.length_cons]
    rcases hi with ⟨addr, rfl⟩ | ⟨addr, data, rfl⟩
    · exact decodeRequests_succ (decodeRequest_encodeRead addr _) (ih hframes)
    · exact decodeRequests_succ (decodeRequest_encodeWrite addr data _) (ih hframes)

end Sys2Proof.Machine

/-! PROOFS. The legality test (30_encoding.md R85), with its masks and as the decoder's acceptance;
and what the Sequencer does with a word that fails it (R86, R87). -/

namespace Sys2Proof.Machine

/-- The decoder accepts exactly the words whose fields are legal. -/
theorem exists_decode_iff_fieldsLegal (w : Word) : (∃ i, decode (.command w) = .ok i) ↔ FieldsLegal w :=
  (exists_decode_iff_encoding _).trans (fieldsLegal_iff_encoding w).symm

/-! ### The masks of the test -/

/-- Words are equal exactly if their fields are. -/
theorem commandWord_inj {opc opc' : BitVec 4} {div div' : BitVec 3} {tag tag' : BitVec 2} {addr addr' : RegAddr}
    {data data' : RegVal} :
    commandWord opc div tag addr data = commandWord opc' div' tag' addr' data' ↔
      opc = opc' ∧ div = div' ∧ tag = tag' ∧ addr = addr' ∧ data = data' := by
  constructor
  · intro h
    exact ⟨by simpa using congrArg opcOf h, by simpa using congrArg divCodeOf h, by simpa using congrArg tagCodeOf h,
      by simpa using congrArg addrOf h, by simpa using congrArg dataOf h⟩
  · rintro ⟨rfl, rfl, rfl, rfl, rfl⟩
    rfl

/-- A mask applies field by field. -/
theorem commandWord_and (opc opc' : BitVec 4) (div div' : BitVec 3) (tag tag' : BitVec 2) (addr addr' : RegAddr)
    (data data' : RegVal) :
    commandWord opc div tag addr data &&& commandWord opc' div' tag' addr' data' =
      commandWord (opc &&& opc') (div &&& div') (tag &&& tag') (addr &&& addr') (data &&& data') := by
  apply BitVec.eq_of_getLsbD_eq
  intro i hi
  simp only [BitVec.getLsbD_and, commandWord_getLsbD]
  split_ifs <;> rfl

/-- The mask that covers the chosen fields of a word, whole. -/
def fieldMask (div tag addr data : Bool) : Word :=
  commandWord 0 (.fill 3 div) (.fill 2 tag) (.fill 7 addr) (.fill 16 data)

/-- A field is zero under its part of the mask exactly if it is not covered or zero. -/
theorem and_fill_eq_zero_iff {n : Nat} (x : BitVec n) (covered : Bool) :
    x &&& .fill n covered = 0 ↔ (covered → x = 0) := by
  cases covered <;> simp [BitVec.fill, BitVec.neg_one_eq_allOnes]

/-- A word is zero under a mask exactly if the covered fields are zero. -/
theorem and_fieldMask_eq_zero_iff (w : Word) (div tag addr data : Bool) :
    w &&& fieldMask div tag addr data = 0 ↔ (div → divCodeOf w = 0) ∧ (tag → tagCodeOf w = 0) ∧
      (addr → addrOf w = 0) ∧ (data → dataOf w = 0) := by
  have hzero : (0 : Word) = commandWord 0 0 0 0 0 := by decide
  calc w &&& fieldMask div tag addr data = 0
      ↔ opcOf w &&& 0 = 0 ∧ divCodeOf w &&& .fill 3 div = 0 ∧ tagCodeOf w &&& .fill 2 tag = 0 ∧
          addrOf w &&& .fill 7 addr = 0 ∧ dataOf w &&& .fill 16 data = 0 := by
        rw [hzero, ← commandWord_inj, ← commandWord_and, commandWord_fields, fieldMask]
    _ ↔ _ := (and_iff_right BitVec.and_zero).trans (by simp only [and_fill_eq_zero_iff])

/-- The fields that `RDREG` does not use, under their mask. -/
@[simp] theorem and_rdregMask_eq_zero_iff (w : Word) :
    w &&& 0x0F80FFFF#32 = 0#32 ↔ divCodeOf w = 0#3 ∧ tagCodeOf w = 0#2 ∧ dataOf w = 0#16 :=
  (and_fieldMask_eq_zero_iff w true true false true).trans (by simp)

/-- The fields that `WRREG` does not use, under their mask. -/
@[simp] theorem and_wrregMask_eq_zero_iff (w : Word) :
    w &&& 0x0F800000#32 = 0#32 ↔ divCodeOf w = 0#3 ∧ tagCodeOf w = 0#2 :=
  (and_fieldMask_eq_zero_iff w true true false false).trans (by simp)

/-- The field that `RDDEC` does not use, under its mask. -/
@[simp] theorem and_rddecMask_eq_zero_iff (w : Word) : w &&& 0x0000FFFF#32 = 0#32 ↔ dataOf w = 0#16 :=
  (and_fieldMask_eq_zero_iff w false false false true).trans (by simp)

/-- The field that `DECODE` does not use, under its mask. -/
@[simp] theorem and_decodeMask_eq_zero_iff (w : Word) : w &&& 0x007F0000#32 = 0#32 ↔ addrOf w = 0#7 :=
  (and_fieldMask_eq_zero_iff w false false true false).trans (by simp)

/-- The fields that `BEGIN` and `CALERR` do not use, under their mask. -/
@[simp] theorem and_operandsMask_eq_zero_iff (w : Word) :
    w &&& 0x0FFFFFFF#32 = 0#32 ↔ divCodeOf w = 0#3 ∧ tagCodeOf w = 0#2 ∧ addrOf w = 0#7 ∧ dataOf w = 0#16 :=
  (and_fieldMask_eq_zero_iff w true true true true).trans (by simp)

/-- The model's legality test holds exactly where the fields are legal. -/
theorem legalWord_iff_fieldsLegal (w : Word) : legalWord w = true ↔ FieldsLegal w := by
  unfold legalWord FieldsLegal RuleLegal
  split_ifs
  case pos hopc => simp [hopc]
  case pos hopc => simp [hopc]
  case pos hopc => simp [hopc]
  case pos hopc => simp [hopc]
  case pos hopc => simp [hopc]
  case pos hopc => simp [hopc]
  case neg hrdreg hwrreg hrddec hdecode hbegin hcalerr => simp only [hrdreg, hwrreg, hrddec, hdecode, hbegin, hcalerr,
    false_and, or_false]

/-! ### The fields, shifted out of the word -/

theorem toNat_opcOf (w : Word) : (opcOf w).toNat = (w >>> 28).toNat := by
  have hlt := w.isLt
  simp only [opcOf, BitVec.extractLsb'_toNat, BitVec.toNat_ushiftRight, Nat.shiftRight_eq_div_pow]
  omega

theorem toNat_divCodeOf (w : Word) : (divCodeOf w).toNat = (w >>> 25 &&& 7).toNat := by
  rw [divCodeOf, BitVec.extractLsb'_toNat, BitVec.toNat_and, BitVec.toNat_ushiftRight]
  exact (Nat.and_two_pow_sub_one_eq_mod _ 3).symm

theorem toNat_tagCodeOf (w : Word) : (tagCodeOf w).toNat = (w >>> 23 &&& 3).toNat := by
  rw [tagCodeOf, BitVec.extractLsb'_toNat, BitVec.toNat_and, BitVec.toNat_ushiftRight]
  exact (Nat.and_two_pow_sub_one_eq_mod _ 2).symm

/-- A word that has the value of a field equals a code exactly if the field does. -/
theorem eq_setWidth_iff {n : Nat} (hn : n ≤ 32) {field : BitVec n} {v : Word} (hv : field.toNat = v.toNat)
    (code : BitVec n) : v = code.setWidth 32 ↔ field = code := by
  rw [← BitVec.toNat_inj, ← BitVec.toNat_inj, hv, BitVec.toNat_setWidth_of_le hn]

/-! ### What the Sequencer does with the latched word -/

section Dispatch

variable {s : State} (hidle : s.seq.st = .idle) (hbusy : s.bank.busy = true)

include hidle hbusy

/-- In `IDLE` with `BUSY` = 1 a word that decodes is executed (41_transaction_engine.md R131). -/
theorem seqStep_of_decode {i : Instr} (h : decode (.command s.seq.cmd) = .ok i) : seqStep s = exec i s := by
  simp [seqStep, seqDispatch, hidle, hbusy, h]

/-- In `IDLE` with `BUSY` = 1 a word whose fields are not legal completes with `ILLEGAL` (30_encoding.md R86). -/
theorem seqStep_of_not_fieldsLegal (h : ¬FieldsLegal s.seq.cmd) : seqStep s = .next (complete .illegal s) := by
  rw [← exists_decode_iff_fieldsLegal] at h
  cases hdecode : decode (.command s.seq.cmd) with
  | ok i => exact absurd ⟨i, hdecode⟩ h
  | error e => simp [seqStep, seqDispatch, hidle, hbusy, hdecode, raiseIllegal]

end Dispatch

/-- Settles O10: mask by mask and shift by shift the test is `FieldsLegal`, which is the decoder's acceptance. -/
theorem legalityTestIsTheDecodersAcceptance : Obligations.LegalityTestIsTheDecodersAcceptance := by
  intro w div tag ruleOk legal
  have hopc := eq_setWidth_iff (by decide) (toNat_opcOf w)
  have htag := eq_setWidth_iff (by decide) (toNat_tagCodeOf w)
  have hdiv := eq_setWidth_iff (by decide) (toNat_divCodeOf w)
  have hle : div ≤ 5 ↔ (divCodeOf w).toNat ≤ 5 := by
    rw [toNat_divCodeOf]
    rfl
  have hrule : ruleOk ↔ RuleLegal (tagCodeOf w) (divCodeOf w) :=
    or_congr (and_congr (htag 0) (hdiv 0)) (and_congr (or_congr (htag 1) (htag 2)) hle)
  have hlegal : legal ↔ FieldsLegal w :=
    or_congr (and_congr (hopc 1) (and_rdregMask_eq_zero_iff w)) <|
    or_congr (and_congr (hopc 2) (and_wrregMask_eq_zero_iff w)) <|
    or_congr (and_congr (hopc 3) (and_congr (and_rddecMask_eq_zero_iff w) hrule)) <|
    or_congr (and_congr (hopc 4) (and_congr (and_decodeMask_eq_zero_iff w) hrule)) <|
    or_congr (and_congr (hopc 5) (and_operandsMask_eq_zero_iff w))
      (and_congr (hopc 6) (and_operandsMask_eq_zero_iff w))
  refine ⟨hlegal.trans (exists_decode_iff_fieldsLegal w).symm, hlegal.trans (legalWord_iff_fieldsLegal w).symm, ?_⟩
  rintro s hidle hbusy rfl
  constructor
  · intro h
    obtain ⟨i, hi⟩ := (exists_decode_iff_fieldsLegal _).mpr (hlegal.mp h)
    exact ⟨i, hi, seqStep_of_decode hidle hbusy hi⟩
  · intro h
    exact seqStep_of_not_fieldsLegal hidle hbusy (mt hlegal.mpr h)

/-- Settles O11: each class of R87 contradicts the fields of a legal word. -/
theorem illegalWordsCompleteWithIllegal : Obligations.IllegalWordsCompleteWithIllegal := by
  intro s opc div tag addr data hidle hbusy hcmd hillegal
  have hnot : ¬FieldsLegal s.seq.cmd := by
    rw [hcmd]
    simp only [FieldsLegal, opcOf_commandWord, divCodeOf_commandWord, tagCodeOf_commandWord, addrOf_commandWord,
      dataOf_commandWord, ruleLegal_iff_not_reserved]
    rintro (⟨rfl, rfl, rfl, rfl⟩ | ⟨rfl, rfl, rfl⟩ | ⟨rfl, rfl, hrule⟩ | ⟨rfl, rfl, hrule⟩ | ⟨rfl, rfl, rfl, rfl, rfl⟩ |
      ⟨rfl, rfl, rfl, rfl, rfl⟩)
    · simp at hillegal
    · simp at hillegal
    · exact hrule (by simpa using hillegal)
    · exact hrule (by simpa using hillegal)
    · simp at hillegal
    · simp at hillegal
  exact seqStep_of_not_fieldsLegal hidle hbusy hnot

end Sys2Proof.Machine

/-! PROOFS. Host programs (30_encoding.md R96) and the per-quantity accessors (R98, R99): the Host's accesses, the
assembler, and the commands that the accessors expand to. -/

namespace Sys2Proof.Machine

/-! ### The Host program -/

/-- The bank word that an `LDW` names is read, whole (20_memory.md R60). -/
theorem exists_hostRead_bankOffset (r : BankReg) (s : State) :
    ∃ v, bankWord (bankOffset r) s.bank = some v ∧
      hostRead (bankOffset r) 4 s = .next { s with host := { s.host with readData := v } } := by
  cases r <;> exact ⟨_, rfl, rfl⟩

/-- Settles O5, statement by statement: a poll and an `LDW` read the bank, a command statement is an accept. -/
theorem hostProgramIssuesPollsAndObserves : Obligations.HostProgramIssuesPollsAndObserves := by
  intro s
  refine ⟨?_, ?_, ?_⟩
  · intro hpolling
    have hread : hostRead (bankOffset .stat) 4 s =
        .next { s with host := { s.host with readData := statWord s.bank } } := rfl
    have hdone : (statWord s.bank).getLsbD 1 = s.bank.done := by rw [statWord_getLsbD]; rfl
    rw [hostProgramStep, if_pos hpolling, hread, ← hdone]
    rfl
  · intro w rest hpolling hprogram hfree
    rw [hostProgramStep, if_neg (Bool.eq_false_iff.mp hpolling), hprogram]
    exact (hostWrite_cmd w _).trans (if_neg (Bool.eq_false_iff.mp hfree))
  · intro r rest hpolling hprogram
    obtain ⟨v, hv, hread⟩ := exists_hostRead_bankOffset r { s with host := { s.host with program := rest } }
    refine ⟨v, hv, ?_⟩
    rw [hostProgramStep, if_neg (Bool.eq_false_iff.mp hpolling), hprogram]
    simp only [hread]
    rfl

/-! ### The assembler -/

section Issue

variable {i : Instr} {w : Word} (hw : encode i = .command w)

include hw

/-- The statement of a command is the write of its word. -/
theorem issueOf_eq_some : issueOf i = some (.issue w) := by simp [issueOf, commandWordOf, hw]

/-- A command does not assemble exactly if the check of its operands fails. -/
theorem ite_issueOf_eq_none_iff (inRange : Prop) [Decidable inRange] :
    (if inRange then issueOf i else none) = none ↔ ¬inRange := by
  simp [issueOf_eq_some hw]

end Issue

/-- An accessor expands to a command, not to a wire frame. -/
theorem exists_encode_expandPseudo (p : Pseudo) : ∃ w, encode (expandPseudo p) = .command w := by
  cases p <;> exact ⟨_, rfl⟩

/-- Settles O6, statement by statement: the operands are checked, and every command assembles. -/
theorem assemblerRejectsExactlyOperandsOutOfRange : Obligations.AssemblerRejectsExactlyOperandsOutOfRange := by
  intro st
  cases st with
  | rdreg a => exact (ite_issueOf_eq_none_iff rfl _).trans Nat.not_lt
  | wrreg a d => exact (ite_issueOf_eq_none_iff rfl _).trans (by omega)
  | rddec a tag div => exact (ite_issueOf_eq_none_iff rfl _).trans Nat.not_lt
  | decode d tag div => exact (ite_issueOf_eq_none_iff rfl _).trans Nat.not_lt
  | beginInit | calerr | ldw => exact iff_of_false (Option.some_ne_none _) id
  | word w => simp [assemble]
  | pseudo p =>
    obtain ⟨w, hw⟩ := exists_encode_expandPseudo p
    simp [assemble, issueOf_eq_some hw]

/-! ### The accessors -/

/-- A power is decoded by one of the scaled rules (00_scope.md R7). -/
theorem powerTag_eq (k : PowerKind) : Config.powerTag k = .sms ∨ Config.powerTag k = .usc := by
  unfold Config.powerTag
  split
  · exact .inl rfl
  · exact .inr rfl

/-- A scaled rule admits every divisor (30_encoding.md R84). -/
theorem pairLegal_powerTag (k : PowerKind) (div : Div) : pairLegal (Config.powerTag k) div = true := by
  rcases powerTag_eq k with htag | htag <;> rw [htag] <;> rfl

/-- An accessor expands to an instruction that the encoding admits. -/
theorem expandPseudo_wf (p : Pseudo) : (expandPseudo p).wf = true := by
  cases p with
  | getp | getq | gets | getpt | getqt | getst => exact pairLegal_powerTag _ _
  | _ => rfl

/-- The word of an accessor's command: it is the statement assembled, it is legal, and it is read back. -/
theorem exists_word_expandPseudo (p : Pseudo) :
    ∃ w, commandWordOf (expandPseudo p) = some w ∧ assemble (.pseudo p) = some (.issue w) ∧ legalWord w = true ∧
      decode (.command w) = .ok (expandPseudo p) := by
  obtain ⟨w, hw⟩ := exists_encode_expandPseudo p
  have hword : commandWordOf (expandPseudo p) = some w := by rw [commandWordOf, hw]
  have hdecode : decode (.command w) = .ok (expandPseudo p) :=
    hw ▸ decodeOfEncodeIsTheInstruction _ (expandPseudo_wf p)
  refine ⟨w, hword, issueOf_eq_some hw, ?_, hdecode⟩
  exact (legalWord_iff_fieldsLegal w).mpr ((exists_decode_iff_fieldsLegal w).mp ⟨_, hdecode⟩)

/-- The divisors 250 and 1000 of a power divide once, and a raw 250 is 1.0 and 0.25 (42_telemetry_decoder.md R170). -/
theorem decodeValue_powerTag (k : PowerKind) :
    (∀ raw : RegVal,
      decodeValue raw (Config.powerTag k) .d250 = fdiv (f64OfInt (numerator raw (Config.powerTag k))) 250 ∧
      decodeValue raw (Config.powerTag k) .d1000 = fdiv (f64OfInt (numerator raw (Config.powerTag k))) 1000) ∧
    decodeValue 250 (Config.powerTag k) .d250 = 0x3FF0000000000000 ∧
    decodeValue 250 (Config.powerTag k) .d1000 = 0x3FD0000000000000 := by
  rcases powerTag_eq k with htag | htag <;> rw [htag] <;> exact ⟨fun _ => ⟨rfl, rfl⟩, by decide, by decide⟩

/-- Settles O14: the word of each accessor is read back as its expansion, which is its row of R99. -/
theorem accessorsExpandToLegalCommands : Obligations.AccessorsExpandToLegalCommands := by
  constructor
  · exact exists_word_expandPseudo
  · intro ph pair hpair
    obtain ⟨wTotal, htotal, -, -, hdecodeTotal⟩ := exists_word_expandPseudo pair.1
    obtain ⟨wPhase, hphase, -, -, hdecodePhase⟩ := exists_word_expandPseudo pair.2
    have hkind : ∃ k, expandPseudo pair.1 = .rddec (Config.regAddr (.totalPower k)) (Config.powerTag k) .d250 ∧
        expandPseudo pair.2 = .rddec (Config.regAddr (.phasePower k ph)) (Config.powerTag k) .d1000 := by
      simp only [List.mem_cons, List.not_mem_nil, or_false] at hpair
      rcases hpair with rfl | rfl | rfl <;> exact ⟨_, rfl, rfl⟩
    obtain ⟨k, hkindTotal, hkindPhase⟩ := hkind
    exact ⟨wTotal, wPhase, _, _, Config.powerTag k, htotal, hphase, hkindTotal ▸ hdecodeTotal,
      hkindPhase ▸ hdecodePhase, decodeValue_powerTag k⟩

end Sys2Proof.Machine

/-! PROOFS. A request frame on the wire (41_transaction_engine.md R133, R134): the byte at the index is handed over, and
after the last one the settle delay begins. -/

namespace Sys2Proof.Machine

section Transmit

variable {frame : List Byte} {len : BitVec 3} {s : State}

/-- Where the Link has room, the frame's byte at the index is handed over. -/
theorem transmit_of_room (hroom : 0 < s.link.txRoom) (hidx : s.seq.txIdx.toNat < frame.length) :
    transmit frame len s = .next (txAdvance len (txSend frame[s.seq.txIdx.toNat] s)) := by
  rw [transmit, if_neg (Nat.pos_iff_ne_zero.mp hroom), List.getElem?_eq_getElem hidx]

/-- Before the frame's last byte only the index advances. -/
theorem txAdvance_of_ne (h : s.seq.txIdx + 1 ≠ len) :
    txAdvance len s = { s with seq := { s.seq with txIdx := s.seq.txIdx + 1 } } := if_neg h

/-- After the frame's last byte the settle delay begins. -/
theorem txAdvance_of_eq (h : s.seq.txIdx + 1 = len) :
    txAdvance len s =
      { s with seq := { s.seq with txIdx := s.seq.txIdx + 1, st := .settle, dly := Config.settleDelay } } := if_pos h

end Transmit

/-- The bytes of a write request, as numbers: the checksum is their sum modulo 256 (40_frame_codec.md R112, R115). -/
theorem encodeWrite_eq (addr : RegAddr) (data : RegVal) :
    encodeWrite addr data = [0xFE, addr.setWidth 8, BitVec.ofNat 8 (data.toNat / 256), BitVec.ofNat 8 data.toNat,
      BitVec.ofNat 8 (data.toNat / 256 + data.toNat % 256 + addr.toNat)] := by
  have hhi : hiByte data = BitVec.ofNat 8 (data.toNat / 256) := by
    apply BitVec.eq_of_toNat_eq
    simp [hiByte, Nat.shiftRight_eq_div_pow]
  have hlo : loByte data = BitVec.ofNat 8 data.toNat := by
    apply BitVec.eq_of_toNat_eq
    simp [loByte]
  have hchk : writeChecksum (addressByte addr .write) data =
      BitVec.ofNat 8 (data.toNat / 256 + data.toNat % 256 + addr.toNat) := by
    apply BitVec.eq_of_toNat_eq
    simp [writeChecksum, addressByte, hhi, hlo]
    omega
  rw [encodeWrite, hhi, hlo, hchk]
  rfl

/-- Settles O20: the first byte leaves the frame unfinished, the second one ends it. -/
theorem readRequestSendsItsTwoBytes : Obligations.ReadRequestSendsItsTwoBytes := by
  intro s addr hroom
  constructor
  · intro hidx
    rw [exec, execFrameRdReq, transmit_of_room hroom (by rw [hidx]; exact Nat.two_pos),
      txAdvance_of_ne (by rw [txSend_seq, hidx]; decide)]
    simp only [txSend_seq, hidx]
    rfl
  · intro hidx
    rw [exec, execFrameRdReq, transmit_of_room hroom (by rw [hidx]; exact Nat.one_lt_two),
      txAdvance_of_eq (by rw [txSend_seq, hidx]; decide)]
    simp only [txSend_seq, hidx, BitVec.or_comm]
    rfl

/-- Settles O21: the byte at the index is that of `encodeWrite_eq`, and the fifth one alone ends the frame. -/
theorem writeRequestSendsItsFiveBytes : Obligations.WriteRequestSendsItsFiveBytes := by
  intro s addr data k hroom hk
  have hnext : s.seq.txIdx + 1 = BitVec.ofNat 3 (k.val + 1) := by
    rw [← hk, BitVec.ofNat_add, BitVec.ofNat_toNat, BitVec.setWidth_eq]
    rfl
  have hfifth : ∀ j : Fin 5, BitVec.ofNat 3 (j.val + 1) = 5 ↔ j = 4 := by decide
  rw [exec, execFrameWrReq, encodeWrite_eq, transmit_of_room hroom (by rw [hk]; exact k.isLt)]
  by_cases hlast : k = 4
  · rw [txAdvance_of_eq (by rwa [txSend_seq, hnext, hfifth]), if_pos hlast]
    simp only [txSend_seq, hk, hnext, hlast]
    rfl
  · rw [txAdvance_of_ne (by rwa [txSend_seq, hnext, Ne, hfifth]), if_neg hlast]
    simp only [txSend_seq, hk, hnext]
    rfl

end Sys2Proof.Machine

/-! PROOFS. The Frame Codec's checksums (40_frame_codec.md R110 to R122), as numbers and as what an answer is validated
against, and what the outcome makes of the command in flight (41_transaction_engine.md R138, R140). -/

namespace Sys2Proof.Machine

/-! ### The bytes as numbers -/

@[simp] theorem toNat_hiByte (v : RegVal) : (hiByte v).toNat = v.toNat / 256 := by
  rw [hiByte, BitVec.extractLsb'_toNat, Nat.shiftRight_eq_div_pow]
  omega

@[simp] theorem toNat_loByte (v : RegVal) : (loByte v).toNat = v.toNat % 256 := by simp [loByte]

/-- The flag is bit 7 and the address the seven bits under it, so as a number the flag adds 128 (40_frame_codec.md R111). -/
theorem toNat_addressByte (addr : RegAddr) (kind : TxnKind) :
    (addressByte addr kind).toNat = addr.toNat + if kind = .read then 128 else 0 := by
  have hlow : (addressByte addr kind).toNat % 128 = addr.toNat := by
    rw [← setWidth_addressByte addr kind, BitVec.toNat_setWidth, setWidth_addressByte]
  have hflag : (addressByte addr kind).toNat / 128 % 2 = 1 ↔ kind = .read := by
    have h := addressByte_getElem_seven addr kind
    rwa [BitVec.getElem_eq_testBit_toNat, Nat.testBit_eq_decide_div_mod_eq, decide_eq_decide] at h
  simp only [← hflag]
  split <;> omega

/-- Settles O17: byte addition wraps modulo 256, so only the bytes' numbers are needed. -/
theorem checksumsAreByteSumsModulo256 : Obligations.ChecksumsAreByteSumsModulo256 := by
  refine ⟨fun addr kind => ⟨toNat_addressByte addr kind, addressByte_getElem_seven addr kind,
    setWidth_addressByte addr kind⟩, fun abyte data => ?_, fun hi lo => BitVec.toNat_add hi lo⟩
  rw [writeChecksum, BitVec.toNat_add, BitVec.toNat_add, toNat_hiByte, toNat_loByte, Nat.mod_add_mod]

/-! ### What the checks accept -/

section Codec

variable {hi lo chk : Byte}

/-- A response whose checksum byte is the sum of its data bytes is a reading (40_frame_codec.md R116). -/
theorem decodeRead_of_sum (h : hi + lo = chk) : decodeRead hi lo chk = some (wordOfBytes hi lo) := if_pos h

/-- A response is rejected exactly when its checksum byte is not the sum of its data bytes (40_frame_codec.md R116). -/
theorem decodeRead_eq_none_iff : decodeRead hi lo chk = none ↔ hi + lo ≠ chk := by
  refine ⟨fun hnone hsum => ?_, fun h => if_neg h⟩
  rw [decodeRead_of_sum hsum] at hnone
  cases hnone

/-- An echo is accepted exactly when it is the stored checksum (40_frame_codec.md R117). -/
theorem checkAck_iff {echo : Byte} : checkAck echo chk = true ↔ echo = chk := beq_iff_eq

end Codec

/-- The checksum of a write, over the bytes as they travel (40_frame_codec.md R112). -/
theorem writeChecksum_wordOfBytes (a hi lo : Byte) : writeChecksum a (wordOfBytes hi lo) = hi + lo + a := by
  simp [writeChecksum]

/-- Settles O18: both answers carry the checksum they are held against. -/
theorem conformingAnswersRoundTrip : Obligations.ConformingAnswersRoundTrip := by
  refine ⟨fun v => ⟨hiByte v, loByte v, _, rfl, ?_⟩, fun addr data => checkAck_iff.mpr rfl⟩
  exact (decodeRead_of_sum rfl).trans (congrArg some (wordOfBytes_bytes v))

/-- Settles O19: each clause asks whether two sums of bytes are equal, and bytes under addition are a group. -/
theorem checksumDetectsAChangeExactlyWhenTheSumChanges :
    Obligations.ChecksumDetectsAChangeExactlyWhenTheSumChanges := by
  intro hi lo
  simp only [decodeRead_eq_none_iff, writeChecksum_wordOfBytes]
  refine ⟨decodeRead_of_sum (add_comm lo hi), fun d => decodeRead_of_sum (by abel), fun b h => ?_, fun b h => ?_,
    fun b h => h.symm, fun a b => ⟨?_, fun h => ?_, fun h => ?_, fun h => ?_⟩, fun hi' lo' chk' => ?_,
    fun a a' hi' lo' => ?_⟩
  · rwa [Ne, add_left_inj]
  · rwa [Ne, add_right_inj]
  · rw [add_comm lo hi]
  · rwa [Ne, add_right_inj]
  · rwa [Ne, add_left_inj, add_left_inj]
  · rwa [Ne, add_left_inj, add_right_inj]
  · rw [sub_add_sub_comm, Ne, Ne, sub_left_inj]
  · have hchange : (a' - a) + (hi' - hi) + (lo' - lo) = hi' + lo' + a' - (hi + lo + a) := by abel
    rw [hchange, Ne, Ne, sub_eq_zero]

/-! ### Validation and finish -/

section Validation

variable {s : State}

/-- The outcome of a transaction goes to the `RDREG` in flight (41_transaction_engine.md R140, R141). -/
theorem finish_of_rdreg (h : opcOf s.seq.cmd = 0x1) : finish s = .next (finishRdreg s) := if_pos h

/-- The outcome of a transaction goes to the `WRREG` in flight (41_transaction_engine.md R140, R145). -/
theorem finish_of_wrreg (h : opcOf s.seq.cmd = 0x2) : finish s = .next (finishWrreg s) := by
  rw [finish, h, if_neg (by decide), if_pos rfl]

/-- A good response finishes the command in flight with its value (41_transaction_engine.md R138). -/
theorem execFrameRdResp_of_sum {hi lo chk : Byte} (h : hi + lo = chk) :
    execFrameRdResp hi lo chk s = finish (txnReadOk (wordOfBytes hi lo) s) := by
  rw [execFrameRdResp, decodeRead_of_sum h]

/-- A response with a bad checksum enters the penalty (41_transaction_engine.md R138). -/
theorem execFrameRdResp_of_ne_sum {hi lo chk : Byte} (h : hi + lo ≠ chk) :
    execFrameRdResp hi lo chk s = .next (readMismatch hi lo chk s) := by
  rw [execFrameRdResp, decodeRead_eq_none_iff.mpr h]

/-- The echo of the stored checksum finishes the command in flight (41_transaction_engine.md R138). -/
theorem execFrameWrAck_of_eq {echo : Byte} (h : echo = s.seq.chk) : execFrameWrAck echo s = finish (txnWriteOk s) :=
  if_pos (checkAck_iff.mpr h)

/-- Another echo enters the penalty (41_transaction_engine.md R138). -/
theorem execFrameWrAck_of_ne {echo : Byte} (h : echo ≠ s.seq.chk) :
    execFrameWrAck echo s = .next (writeMismatch echo s) :=
  if_neg (mt checkAck_iff.mp h)

end Validation

/-- Settles O22: a good response finishes the `RDREG` in flight, a bad one is the mismatch of a read. -/
theorem readResponseCompletesOrPenalizes : Obligations.ReadResponseCompletesOrPenalizes := by
  intro s hi lo chk addr
  constructor
  · intro hgood hcmd
    have hopc : opcOf s.seq.cmd = 0x1 := by rw [hcmd, opcOf_commandWord]
    rw [exec, execFrameRdResp_of_sum hgood.symm, finish_of_rdreg (s := txnReadOk _ s) hopc]
    rfl
  · intro hbad
    rw [exec, execFrameRdResp_of_ne_sum hbad.symm]
    rfl

/-- Settles O23: the echo of the stored checksum finishes the `WRREG` in flight, another one is the mismatch of a write. -/
theorem writeAckCompletesOrPenalizes : Obligations.WriteAckCompletesOrPenalizes := by
  intro s echo addr data
  constructor
  · intro hgood hcmd
    have hopc : opcOf s.seq.cmd = 0x2 := by rw [hcmd, opcOf_commandWord]
    rw [exec, execFrameWrAck_of_eq hgood, finish_of_wrreg (s := txnWriteOk s) hopc]
    rfl
  · intro hbad
    rw [exec, execFrameWrAck_of_ne hbad]
    rfl

end Sys2Proof.Machine

/-! PROOFS. Runs of the machine, and the Sequencer's turns in them (41_transaction_engine.md R130). -/

namespace Sys2Proof

section Runs

open Machine

variable {n m : Nat} {rest : List Event} {s t u : State}

/-- A run that ends in a state begins with a step that answers one. -/
theorem run_succ_eq_next_iff (M : Host.Core) {s u : M.State} :
    M.run (n + 1) s = .next u ↔ ∃ t, M.step s = .next t ∧ M.run n t = .next u := by
  rw [Host.Core.run]
  cases M.step s <;> simp

theorem runsTo_succ_iff : RunsTo (n + 1) s u ↔ ∃ t, step s = .next t ∧ RunsTo n t u := run_succ_eq_next_iff core

theorem RunsTo.head (h : step s = .next t) (hrun : RunsTo n t u) : RunsTo (n + 1) s u :=
  runsTo_succ_iff.mpr ⟨t, h, hrun⟩

theorem RunsTo.single (h : step s = .next t) : RunsTo 1 s t := .head h rfl

theorem RunsTo.trans (h : RunsTo m s t) (hrun : RunsTo n t u) : RunsTo (m + n) s u := by
  induction m generalizing s with
  | zero => cases h; rwa [Nat.zero_add]
  | succ m ih =>
    obtain ⟨v, hstep, h⟩ := runsTo_succ_iff.mp h
    rw [Nat.add_right_comm]
    exact .head hstep (ih h)

/-- A run has one end. -/
theorem RunsTo.unique (h : RunsTo n s t) (h' : RunsTo n s u) : t = u := by
  cases h.symm.trans h'
  rfl

theorem step_of_pending (h : s.pending = .sequencer :: rest) : step s = seqStep { s with pending := rest } := by
  rw [step, nextEvent_scheduled _ _ _ h]
  rfl

/-- `s` with the next `n` turns the Sequencer's. -/
def withTurns (n : Nat) (rest : List Event) (s : State) : State :=
  { s with pending := List.replicate n Event.sequencer ++ rest }

theorem scheduled_withTurns (n : Nat) (rest : List Event) (s : State) : Scheduled n rest (withTurns n rest s) := rfl

/-- A turn of the Sequencer is its transition, with the turn spent. -/
theorem step_of_scheduled (h : Scheduled (n + 1) rest s) : step s = seqStep (withTurns n rest s) :=
  step_of_pending h

theorem step_withTurns (n : Nat) (rest : List Event) (s : State) :
    step (withTurns (n + 1) rest s) = seqStep (withTurns n rest s) :=
  step_of_scheduled (scheduled_withTurns (n + 1) rest s)

end Runs

end Sys2Proof

/-! PROOFS. What the Sequencer does with its turn where it stands (41_transaction_engine.md R130 to R140): the frame of the
transaction it holds is sent byte by byte, a response byte is taken, and the outcome goes to the command in flight. -/

namespace Sys2Proof.Machine

section Turns

variable {s : State}

/-! ### `TX` and `RX` -/

/-- The bytes of a transaction's frame decode to a request whose next byte is the frame's. -/
theorem seqTransmit_of_loaded {kind : TxnKind} {addr : RegAddr} {data : RegVal} (h : TxnLoaded s.seq kind addr data) :
    seqTransmit s = transmit (frameOf kind addr data) s.seq.txLen s := by
  have hlen : s.seq.txLen = BitVec.ofNat 3 (frameOf kind addr data).length := by
    rw [← h.txLen, BitVec.ofNat_toNat, BitVec.setWidth_eq]
  rw [seqTransmit, requestCode, h.frame, hlen]
  cases kind with
  | read =>
    have hdecode : decode (.request (encodeRead addr)) = .ok (.frameRdReq addr) :=
      decodeOfEncodeIsTheInstruction (.frameRdReq addr) rfl
    rw [frameOf, hdecode]
    rfl
  | write =>
    have hdecode : decode (.request (encodeWrite addr data)) = .ok (.frameWrReq addr data) :=
      decodeOfEncodeIsTheInstruction (.frameWrReq addr data) rfl
    rw [frameOf, hdecode]
    rfl

theorem seqStep_of_tx (hst : s.seq.st = .tx) : seqStep s = seqTransmit s := by rw [seqStep, hst]

theorem seqStep_of_settle (hst : s.seq.st = .settle) : seqStep s = .next (seqSettle s) := by rw [seqStep, hst]

theorem seqStep_of_rx (hst : s.seq.st = .rx) : seqStep s = seqReceive s := by rw [seqStep, hst]

theorem seqStep_of_penalty (hst : s.seq.st = .penalty) : seqStep s = finish s := by rw [seqStep, hst]

section Receive

variable {b : Byte} {held : List Byte} (hheld : s.link.rxHeld = b :: held) (hcnt : s.seq.rxCnt ≠ 3)

include hheld hcnt

/-- A response byte that is not the last one is taken (41_transaction_engine.md R137). -/
theorem seqReceive_of_more (hmore : s.seq.rxCnt + 1 ≠ s.seq.rxNeed) : seqReceive s = .next (rxTake b held s) := by
  rw [seqReceive, hheld]
  exact (if_neg hcnt).trans (if_neg hmore)

/-- The last response byte is taken and validated (41_transaction_engine.md R138). -/
theorem seqReceive_of_last (hlast : s.seq.rxCnt + 1 = s.seq.rxNeed) : seqReceive s = validate (rxTake b held s) := by
  rw [seqReceive, hheld]
  exact (if_neg hcnt).trans (if_pos hlast)

end Receive

/-! ### `finish` -/

/-- The outcome of a transaction goes to the `RDDEC` in flight (41_transaction_engine.md R140, 42_telemetry_decoder.md
R167). -/
theorem finish_of_rddec {tag : Tag} {div : Div} (hopc : opcOf s.seq.cmd = 0x3)
    (htag : tagOfCode (tagCodeOf s.seq.cmd) = some tag) (hdiv : divOfCode (divCodeOf s.seq.cmd) = some div) :
    finish s = .next (complete (errOfTxn s.seq.txnOk)
      (setVal (decodeValue s.seq.txnRaw tag div) (setRaw s.seq.txnRaw s))) := by
  simp [finish, finishRddec, hopc, htag, hdiv]

/-- After a transaction of `BEGIN` the next entry is played, whatever the outcome (43_device_initializer.md R183). -/
theorem finish_of_begin (hopc : opcOf s.seq.cmd = 0x5) : finish s = .next (nextInit initTable s) := by
  simp [finish, hopc]

/-- The outcome of a transaction goes to the `CALERR` in flight (43_device_initializer.md R186). -/
theorem finish_of_calerr (hopc : opcOf s.seq.cmd = 0x6) : finish s = .next (finishCalerr s) := by
  simp [finish, hopc]

/-- A command with a transaction has a finish. -/
theorem exists_finish_of_holdsTxn (h : HoldsTxn s.seq) : ∃ t, finish s = .next t := by
  obtain ⟨i, kind, addr, data, hi, htxn, -⟩ := h
  rcases decode_command_cases hi with ⟨a, rfl, hopc⟩ | ⟨a, d, rfl, hopc⟩ | ⟨a, tag, div, rfl, hopc, htag, hdiv⟩ |
    ⟨d, tag, div, rfl, -⟩ | ⟨rfl, hopc⟩ | ⟨rfl, hopc⟩
  · exact ⟨_, finish_of_rdreg hopc⟩
  · exact ⟨_, finish_of_wrreg hopc⟩
  · exact ⟨_, finish_of_rddec hopc htag hdiv⟩
  · cases htxn
  · exact ⟨_, finish_of_begin hopc⟩
  · exact ⟨_, finish_of_calerr hopc⟩

end Turns

/-- The three bytes of a response buffer. -/
theorem toList_rx (rx : Vector Byte 3) : rx.toList = [rx[0], rx[1], rx[2]] := by
  apply List.ext_getElem
  · simp
  · intro i hi _
    rw [Vector.length_toList] at hi
    match i with
    | 0 | 1 | 2 => simp

/-- Settles O15: where the Sequencer stands tells what it decodes, and `exec` of that is its transition. -/
theorem stepRunsTheDecodedInstruction : Obligations.StepRunsTheDecodedInstruction := by
  intro s rest i hpending s'
  rw [step_of_pending hpending]
  refine ⟨fun hst hbusy hi => seqStep_of_decode (s := s') hst hbusy hi, fun hst hi => ?_,
    fun b held hst hheld hcnt hlast hi => ?_⟩
  · have hdecode : decode (requestCode s') = .ok i := hi
    rw [seqStep_of_tx (s := s') hst, seqTransmit, hdecode]
  · have hcode : decode (responseCode (rxTake b held s')) = .ok i := by
      rw [← hi, responseCode, rxTake_op]
      cases s.seq.op with
      | read => rw [toList_rx]; rfl
      | write => rfl
    rw [seqStep_of_rx (s := s') hst, seqReceive_of_last (s := s') hheld hcnt hlast, validate, hcode]

/-- Without room in the Link no byte is handed over, whatever the buffer holds (41_transaction_engine.md R150). -/
theorem seqTransmit_of_no_room {s : State} (hroom : s.link.txRoom = 0) : seqTransmit s = .next s := by
  have hwait : ∀ frame len, transmit frame len s = .next s := fun _ _ => if_pos hroom
  unfold seqTransmit
  split
  · rename_i i hi
    rcases decode_request_cases hi with ⟨a, rfl, -⟩ | ⟨a, d, rfl, -⟩
    · exact hwait _ _
    · exact hwait _ _
  · exact hwait _ _

/-- Settles O49: `TX` waits for room, `RX` for a byte, and `IDLE` without a command has no transition. -/
theorem sequencerWaitsForTheLink : Obligations.SequencerWaitsForTheLink := by
  rintro s (⟨hst, hroom⟩ | ⟨hst, hheld⟩ | ⟨hidle, hfree⟩)
  · rw [seqStep_of_tx hst, seqTransmit_of_no_room hroom]
  · rw [seqStep_of_rx hst, seqReceive, hheld]
  · exact seqStep_free hidle hfree

end Sys2Proof.Machine

/-! PROOFS. A transaction from its start to the outcome that `finish` is given (41_transaction_engine.md R132 to R139), as a
run of the Sequencer's turns. -/

namespace Sys2Proof.Machine

/-! ### The request -/

section Request

variable {kind : TxnKind} {addr : RegAddr} {data : RegVal} {n : Nat} {rest : List Event} {s : State} {b c : Byte}
  {bytes : List Byte}

/-- `s` with a byte of its frame handed over that is not the last one. -/
def byteSent (b : Byte) (s : State) : State :=
  txSend b { s with seq := { s.seq with txIdx := s.seq.txIdx + 1 } }

/-- `s` with the rest of its frame handed over and the settle delay begun. -/
def requestSent (bytes : List Byte) (s : State) : State :=
  { s with
    seq := { s.seq with txIdx := s.seq.txLen, st := .settle, dly := Config.settleDelay }
    link := { s.link with txRoom := s.link.txRoom - bytes.length, txStream := s.link.txStream ++ bytes } }

theorem requestSent_byteSent : requestSent bytes (byteSent b s) = requestSent (b :: bytes) s := by
  simp [requestSent, byteSent, Nat.sub_sub, Nat.add_comm]

theorem txLen_of_left (hloaded : TxnLoaded s.seq kind addr data)
    (hleft : (frameOf kind addr data).drop s.seq.txIdx.toNat = b :: bytes) :
    s.seq.txLen.toNat = s.seq.txIdx.toNat + (bytes.length + 1) := by
  have hlen := congrArg List.length hleft
  rw [List.length_drop, ← hloaded.txLen, List.length_cons] at hlen
  omega

/-- In `TX` the first byte left of the frame is handed over (41_transaction_engine.md R133). -/
theorem step_of_tx (hst : s.seq.st = .tx) (hloaded : TxnLoaded s.seq kind addr data)
    (hleft : (frameOf kind addr data).drop s.seq.txIdx.toNat = b :: bytes) (hroom : 0 < s.link.txRoom)
    (hsched : Scheduled (n + 1) rest s) :
    step s = .next (txAdvance s.seq.txLen (txSend b (withTurns n rest s))) := by
  have hidx : s.seq.txIdx.toNat < (frameOf kind addr data).length := by
    rw [← hloaded.txLen, txLen_of_left hloaded hleft]
    omega
  have hbyte : (frameOf kind addr data)[s.seq.txIdx.toNat] = b := by
    rw [List.drop_eq_getElem_cons hidx] at hleft
    exact (List.cons.inj hleft).1
  rw [step_of_scheduled hsched, seqStep_of_tx (s := withTurns n rest s) hst,
    seqTransmit_of_loaded (s := withTurns n rest s) hloaded, ← hbyte]
  exact transmit_of_room (s := withTurns n rest s) hroom hidx

/-- The frame's last byte begins the settle delay (41_transaction_engine.md R134). -/
theorem step_requestSent (hst : s.seq.st = .tx) (hloaded : TxnLoaded s.seq kind addr data)
    (hleft : (frameOf kind addr data).drop s.seq.txIdx.toNat = [b]) (hroom : 0 < s.link.txRoom)
    (hsched : Scheduled (n + 1) rest s) : step s = .next (withTurns n rest (requestSent [b] s)) := by
  have hlen := txLen_of_left hloaded hleft
  have hlast : s.seq.txIdx + 1 = s.seq.txLen := by
    rw [List.length_nil] at hlen
    bv_omega
  rw [step_of_tx hst hloaded hleft hroom hsched, txAdvance_of_eq (s := txSend b (withTurns n rest s)) hlast,
    requestSent, ← hlast]
  rfl

/-- After a byte that is not the frame's last one the transaction is still held, with the bytes after it left. -/
theorem step_byteSent (hst : s.seq.st = .tx) (hloaded : TxnLoaded s.seq kind addr data)
    (hleft : (frameOf kind addr data).drop s.seq.txIdx.toNat = b :: c :: bytes) (hroom : 0 < s.link.txRoom)
    (hsched : Scheduled (n + 1) rest s) :
    step s = .next (withTurns n rest (byteSent b s)) ∧ TxnLoaded (byteSent b s).seq kind addr data ∧
      (frameOf kind addr data).drop (byteSent b s).seq.txIdx.toNat = c :: bytes := by
  have hlen := txLen_of_left hloaded hleft
  rw [List.length_cons] at hlen
  have hmore : s.seq.txIdx + 1 ≠ s.seq.txLen := by bv_omega
  have hnext : (byteSent b s).seq.txIdx.toNat = s.seq.txIdx.toNat + 1 := by
    change (s.seq.txIdx + 1).toNat = _
    bv_omega
  refine ⟨?_, ?_, ?_⟩
  · rw [step_of_tx hst hloaded hleft hroom hsched, txAdvance_of_ne (s := txSend b (withTurns n rest s)) hmore]
    rfl
  · obtain ⟨op, abyte, frame, txLen, rxNeed, chk⟩ := hloaded
    exact ⟨op, abyte, frame, txLen, rxNeed, chk⟩
  · rw [hnext, ← List.drop_drop, hleft, List.drop_one, List.tail_cons]

/-- What is left of the frame in `TX` is handed over a byte a turn, and then the settle delay begins
(41_transaction_engine.md R133, R134). -/
theorem runsTo_requestSent (hst : s.seq.st = .tx) (hloaded : TxnLoaded s.seq kind addr data)
    (hleft : (frameOf kind addr data).drop s.seq.txIdx.toNat = b :: bytes)
    (hroom : bytes.length < s.link.txRoom) (hsched : Scheduled (n + bytes.length + 1) rest s) :
    RunsTo (bytes.length + 1) s (withTurns n rest (requestSent (b :: bytes) s)) := by
  induction bytes generalizing s b with
  | nil => exact .single (step_requestSent hst hloaded hleft hroom hsched)
  | cons c bytes ih =>
    obtain ⟨hstep, hloaded', hleft'⟩ := step_byteSent hst hloaded hleft (Nat.zero_lt_of_lt hroom) hsched
    rw [← requestSent_byteSent]
    exact .head hstep (ih (s := withTurns _ rest (byteSent b s)) hst hloaded' hleft' (Nat.lt_sub_of_add_lt hroom) rfl)

end Request

/-! ### The response -/

section Response

variable {n : Nat} {rest : List Event} {s t : State}

/-- `s` with a transaction started, its request sent and its settle delay over. -/
def awaitingResponse (kind : TxnKind) (addr : RegAddr) (data : RegVal) (s : State) : State :=
  seqSettle (requestSent (frameOf kind addr data) (startTxn kind addr data s))

/-- A transaction that is started sends its frame and settles, if the Link has room for the frame. -/
theorem runsTo_awaitingResponse {kind : TxnKind} {addr : RegAddr} {data : RegVal} (hdata : kind = .read → data = 0)
    (hroom : (frameOf kind addr data).length ≤ s.link.txRoom)
    (hsched : Scheduled (n + 1 + (frameOf kind addr data).length) rest s) :
    RunsTo ((frameOf kind addr data).length + 1) (startTxn kind addr data s)
      (withTurns n rest (awaitingResponse kind addr data s)) := by
  have hsettle : step (withTurns (n + 1) rest (requestSent (frameOf kind addr data) (startTxn kind addr data s))) =
      .next (withTurns n rest (awaitingResponse kind addr data s)) :=
    (step_withTurns ..).trans (seqStep_of_settle rfl)
  refine RunsTo.trans ?_ (.single hsettle)
  have hloaded := startTxn_loaded kind addr data s hdata
  cases kind with
  | read => exact runsTo_requestSent rfl hloaded rfl hroom hsched
  | write => exact runsTo_requestSent rfl hloaded rfl hroom hsched

/-- What `finish` finds in `w` of a transaction that `s` has started: its outcome, the bytes passed and the records emitted;
the bank, the Host and the latched word are those of `s`. -/
structure AfterTxn (s w : State) (sent held : List Byte) (records : List LogRecord) (rest : List Event) (ok : Bool) :
    Prop where
  cmd     : w.seq.cmd = s.seq.cmd
  txnOk   : w.seq.txnOk = ok
  bank    : w.bank = s.bank
  host    : w.host = s.host
  pending : w.pending = rest
  tick    : w.tick = s.tick
  log     : w.log = s.log ++ records
  link    : w.link = { txRoom := s.link.txRoom - sent.length, txStream := s.link.txStream ++ sent, rxHeld := held }

/-- A completion with any results ends the command. -/
theorem AfterTxn.complete {w : State} {sent held : List Byte} {records : List LogRecord} {ok : Bool}
    (h : AfterTxn s w sent held records rest ok) (e : ErrCode) (b : BankRegs) :
    AfterCommand s (complete e { w with bank := b }) sent held records rest :=
  ⟨rfl, h.cmd, h.host, h.pending, h.tick, h.log, h.link⟩

section Receive

variable {b : Byte} {held : List Byte} (hst : s.seq.st = .rx) (hheld : s.link.rxHeld = b :: held)
  (hcnt : s.seq.rxCnt ≠ 3)

include hst hheld hcnt

theorem step_rx_more (hmore : s.seq.rxCnt + 1 ≠ s.seq.rxNeed) :
    step (withTurns (n + 1) rest s) = .next (withTurns n rest (rxTake b held s)) := by
  rw [step_withTurns, seqStep_of_rx (s := withTurns n rest s) hst]
  exact seqReceive_of_more (s := withTurns n rest s) hheld hcnt hmore

theorem step_rx_last (hlast : s.seq.rxCnt + 1 = s.seq.rxNeed) :
    step (withTurns (n + 1) rest s) = validate (withTurns n rest (rxTake b held s)) := by
  rw [step_withTurns, seqStep_of_rx (s := withTurns n rest s) hst]
  exact seqReceive_of_last (s := withTurns n rest s) hheld hcnt hlast

end Receive

section Read

variable {addr : RegAddr} {hi lo chk : Byte} {more : List Byte}

/-- `s` with a read started and its three response bytes received. -/
def readReceived (addr : RegAddr) (hi lo chk : Byte) (more : List Byte) (s : State) : State :=
  rxTake chk more (rxTake lo (chk :: more) (rxTake hi (lo :: chk :: more) (awaitingResponse .read addr 0 s)))

theorem validate_readReceived :
    validate (withTurns n rest (readReceived addr hi lo chk more s)) =
      execFrameRdResp hi lo chk (withTurns n rest (readReceived addr hi lo chk more s)) := by
  have hrx : (withTurns n rest (readReceived addr hi lo chk more s)).seq.rx =
      ((s.seq.rx.setIfInBounds 0 hi).setIfInBounds 1 lo).setIfInBounds 2 chk := rfl
  have hop : (withTurns n rest (readReceived addr hi lo chk more s)).seq.op = .read := rfl
  simp [validate_eq, hop, hrx]

/-- A read comes to the validation of its response in the sixth turn (41_transaction_engine.md R132 to R138). -/
theorem runsTo_of_readResponse (hroom : 2 ≤ s.link.txRoom) (hheld : s.link.rxHeld = hi :: lo :: chk :: more)
    (hsched : Scheduled (n + 6) rest s)
    (hvalid : execFrameRdResp hi lo chk (withTurns n rest (readReceived addr hi lo chk more s)) = .next t) :
    RunsTo 6 (startTxn .read addr 0 s) t := by
  have hsent : RunsTo 3 (startTxn .read addr 0 s) (withTurns (n + 3) rest (awaitingResponse .read addr 0 s)) :=
    runsTo_awaitingResponse (fun _ => rfl) hroom hsched
  have hlast := step_rx_last (n := n) (rest := rest)
    (s := rxTake lo (chk :: more) (rxTake hi (lo :: chk :: more) (awaitingResponse .read addr 0 s))) rfl rfl nofun rfl
  exact hsent.trans (.head (step_rx_more rfl hheld nofun nofun) (.head (step_rx_more rfl rfl nofun nofun)
    (.single (hlast.trans (validate_readReceived.trans hvalid)))))

/-- A read ends in `finish`, after the penalty if the checksum is bad; it has sent its frame once (41_transaction_engine.md
R138, R139, R142). -/
theorem runsTo_of_readFinish (hroom : 2 ≤ s.link.txRoom) (hheld : s.link.rxHeld = hi :: lo :: chk :: more)
    (hsched : Scheduled (if chk = hi + lo then 6 else 7) rest s) :
    ∃ w, AfterTxn s w (encodeRead addr) more
        (if chk = hi + lo then [] else [⟨.read, addressByte addr .read, hi + lo, chk⟩]) rest (decide (chk = hi + lo)) ∧
      w.seq.txnRaw = (if chk = hi + lo then hi ++ lo else 0xFFFF) ∧
      ∀ u, finish w = .next u → RunsTo (if chk = hi + lo then 6 else 7) (startTxn .read addr 0 s) u := by
  by_cases hsum : chk = hi + lo
  · simp only [if_pos hsum, decide_eq_true hsum] at hsched ⊢
    refine ⟨txnReadOk (hi ++ lo) (withTurns 0 rest (readReceived addr hi lo chk more s)),
      ⟨rfl, rfl, rfl, rfl, rfl, rfl, (List.append_nil _).symm, rfl⟩, rfl, fun u hfinish => ?_⟩
    exact runsTo_of_readResponse (n := 0) hroom hheld hsched ((execFrameRdResp_of_sum hsum.symm).trans hfinish)
  · simp only [if_neg hsum, decide_eq_false hsum] at hsched ⊢
    refine ⟨withTurns 0 rest (readMismatch hi lo chk (readReceived addr hi lo chk more s)),
      ⟨rfl, rfl, rfl, rfl, rfl, rfl, rfl, rfl⟩, rfl, fun u hfinish => ?_⟩
    have hpenalty : RunsTo 6 (startTxn .read addr 0 s)
        (withTurns 1 rest (readMismatch hi lo chk (readReceived addr hi lo chk more s))) :=
      runsTo_of_readResponse hroom hheld hsched (execFrameRdResp_of_ne_sum (Ne.symm hsum))
    exact hpenalty.trans (.single ((step_withTurns ..).trans ((seqStep_of_penalty rfl).trans hfinish)))

end Read

section Write

variable {addr : RegAddr} {data : RegVal} {echo : Byte} {more : List Byte}

/-- `s` with a write started and its echo received. -/
def writeReceived (addr : RegAddr) (data : RegVal) (echo : Byte) (more : List Byte) (s : State) : State :=
  rxTake echo more (awaitingResponse .write addr data s)

theorem validate_writeReceived :
    validate (withTurns n rest (writeReceived addr data echo more s)) =
      execFrameWrAck echo (withTurns n rest (writeReceived addr data echo more s)) := by
  have hrx : (withTurns n rest (writeReceived addr data echo more s)).seq.rx = s.seq.rx.setIfInBounds 0 echo := rfl
  have hop : (withTurns n rest (writeReceived addr data echo more s)).seq.op = .write := rfl
  simp [validate_eq, hop, hrx]

/-- A write comes to the validation of its echo in the seventh turn (41_transaction_engine.md R132 to R138). -/
theorem runsTo_of_writeAck (hroom : 5 ≤ s.link.txRoom) (hheld : s.link.rxHeld = echo :: more)
    (hsched : Scheduled (n + 7) rest s)
    (hvalid : execFrameWrAck echo (withTurns n rest (writeReceived addr data echo more s)) = .next t) :
    RunsTo 7 (startTxn .write addr data s) t := by
  have hsent : RunsTo 6 (startTxn .write addr data s) (withTurns (n + 1) rest (awaitingResponse .write addr data s)) :=
    runsTo_awaitingResponse nofun hroom hsched
  have hlast := step_rx_last (n := n) (rest := rest) (s := awaitingResponse .write addr data s) rfl hheld nofun rfl
  exact hsent.trans (.single (hlast.trans (validate_writeReceived.trans hvalid)))

/-- A write ends in `finish`, after the penalty if the echo is not the checksum sent (41_transaction_engine.md R138,
R139). -/
theorem runsTo_of_writeFinish (hroom : 5 ≤ s.link.txRoom) (hheld : s.link.rxHeld = echo :: more) {sum : Byte}
    (hsum : sum = hiByte data + loByte data + addressByte addr .write)
    (hsched : Scheduled (if echo = sum then 7 else 8) rest s) :
    ∃ w, AfterTxn s w (encodeWrite addr data) more
        (if echo = sum then [] else [⟨.write, addressByte addr .write, sum, echo⟩]) rest (decide (echo = sum)) ∧
      ∀ u, finish w = .next u → RunsTo (if echo = sum then 7 else 8) (startTxn .write addr data s) u := by
  subst hsum
  by_cases hecho : echo = hiByte data + loByte data + addressByte addr .write
  · simp only [if_pos hecho, decide_eq_true hecho] at hsched ⊢
    refine ⟨txnWriteOk (withTurns 0 rest (writeReceived addr data echo more s)),
      ⟨rfl, rfl, rfl, rfl, rfl, rfl, (List.append_nil _).symm, rfl⟩, fun u hfinish => ?_⟩
    exact runsTo_of_writeAck (n := 0) hroom hheld hsched ((execFrameWrAck_of_eq hecho).trans hfinish)
  · simp only [if_neg hecho, decide_eq_false hecho] at hsched ⊢
    refine ⟨withTurns 0 rest (writeMismatch echo (writeReceived addr data echo more s)),
      ⟨rfl, rfl, rfl, rfl, rfl, rfl, rfl, rfl⟩, fun u hfinish => ?_⟩
    have hpenalty : RunsTo 7 (startTxn .write addr data s)
        (withTurns 1 rest (writeMismatch echo (writeReceived addr data echo more s))) :=
      runsTo_of_writeAck hroom hheld hsched (execFrameWrAck_of_ne hecho)
    exact hpenalty.trans (.single ((step_withTurns ..).trans ((seqStep_of_penalty rfl).trans hfinish)))

end Write

end Response

end Sys2Proof.Machine

/-! PROOFS. The commands that perform one transaction, from dispatch to completion (41_transaction_engine.md R131 to R145,
42_telemetry_decoder.md R167, 43_device_initializer.md R186). -/

namespace Sys2Proof.Machine

/-! ### The results of a transaction -/

theorem errOfTxn_decide (p : Prop) [Decidable p] : errOfTxn (decide p) = if p then .none else .checksum := by
  by_cases hp : p <;> simp [errOfTxn, hp]

/-- The address byte of a read with the flag first (40_frame_codec.md R111). -/
theorem addressByte_read (addr : RegAddr) : addressByte addr .read = 0x80#8 ||| addr.setWidth 8 := BitVec.or_comm _ _

theorem encodeRead_eq (addr : RegAddr) : encodeRead addr = [0xFE, 0x80#8 ||| addr.setWidth 8] := by
  rw [← addressByte_read]
  rfl

/-- The calibration flags are the four tests in order (43_device_initializer.md R186). -/
theorem calFlags_getLsbD (r : RegVal) :
    (calFlags r).getLsbD 0 = (r &&& Config.calMask0 != 0) ∧ (calFlags r).getLsbD 1 = (r &&& Config.calMask1 != 0) ∧
    (calFlags r).getLsbD 2 = (r &&& Config.calMask2 != 0) ∧ (calFlags r).getLsbD 3 = (r &&& Config.calMask3 != 0) := by
  change (calFlags r).getLsbD 0 = calTest r Config.calMask0 ∧ (calFlags r).getLsbD 1 = calTest r Config.calMask1 ∧
    (calFlags r).getLsbD 2 = calTest r Config.calMask2 ∧ (calFlags r).getLsbD 3 = calTest r Config.calMask3
  unfold calFlags calFlagsOf
  generalize calTest r Config.calMask0 = a
  generalize calTest r Config.calMask1 = b
  generalize calTest r Config.calMask2 = c
  generalize calTest r Config.calMask3 = d
  revert a b c d
  decide

/-- `RDREG` with any response: the value read and no error, or the sentinel and `CHECKSUM` (41_transaction_engine.md R141,
R142). -/
theorem rdreg_completes {s : State} {addr : RegAddr} {hi lo chk : Byte} {more : List Byte} {rest : List Event}
    (hcmd : s.seq.cmd = commandWord 0x1 0 0 addr 0) (hroom : 2 ≤ s.link.txRoom)
    (hheld : s.link.rxHeld = hi :: lo :: chk :: more)
    (hsched : Scheduled (if chk = hi + lo then 6 else 7) rest s) :
    ∃ t u, exec (.rdreg addr) s = .next t ∧ RunsTo (if chk = hi + lo then 6 else 7) t u ∧
      AfterCommand s u [0xFE, 0x80#8 ||| addr.setWidth 8] more
        (if chk = hi + lo then [] else [⟨.read, 0x80#8 ||| addr.setWidth 8, hi + lo, chk⟩]) rest ∧
      u.bank = { s.bank with
        busy := false, done := true, err := (if chk = hi + lo then .none else .checksum)
        raw := (if chk = hi + lo then hi ++ lo else 0xFFFF) } := by
  obtain ⟨w, hw, hraw, hrun⟩ := runsTo_of_readFinish (addr := addr) hroom hheld hsched
  have hopc : opcOf w.seq.cmd = 0x1 := by rw [hw.cmd, hcmd, opcOf_commandWord]
  rw [encodeRead_eq, addressByte_read] at hw
  refine ⟨startTxn .read addr 0 s, finishRdreg w, rfl, hrun _ (finish_of_rdreg hopc), hw.complete _ _, ?_⟩
  rw [← hraw, ← errOfTxn_decide, ← hw.txnOk, ← hw.bank]
  rfl

/-- Settles O24: the response is the one whose checksum is the sum. -/
theorem rdregReturnsTheRegisterRead : Obligations.RdregReturnsTheRegisterRead := by
  intro s addr hi lo more rest hcmd hroom hheld hsched
  have h := rdreg_completes hcmd hroom hheld (rest := rest) (by rwa [if_pos rfl])
  simpa only [eq_self, if_true] using h

/-- Settles O25: the response is one whose checksum is not the sum. -/
theorem rdregReportsAChecksumMismatch : Obligations.RdregReportsAChecksumMismatch := by
  intro s addr hi lo chk more rest hcmd hroom hheld hbad hsched
  have h := rdreg_completes hcmd hroom hheld (rest := rest) (by rwa [if_neg hbad])
  simpa only [if_neg hbad] using h

/-- Settles O26: the outcome of the write goes to `WRREG`, which writes no result. -/
theorem wrregSendsTheValueAndChecksTheEcho : Obligations.WrregSendsTheValueAndChecksTheEcho := by
  intro s addr data echo more rest sum hcmd hroom hheld hsched
  obtain ⟨w, hw, hrun⟩ := runsTo_of_writeFinish (addr := addr) (data := data) (sum := sum) hroom hheld rfl hsched
  have hopc : opcOf w.seq.cmd = 0x2 := by rw [hw.cmd, hcmd, opcOf_commandWord]
  refine ⟨startTxn .write addr data s, finishWrreg w, rfl, hrun _ (finish_of_wrreg hopc), hw.complete _ w.bank, ?_⟩
  rw [← errOfTxn_decide, ← hw.txnOk, ← hw.bank]
  rfl

/-- Settles O27: the outcome of the read goes to `RDDEC`, whose tag and divisor are read back from the latched word. -/
theorem rddecReadsAndDecodes : Obligations.RddecReadsAndDecodes := by
  intro s addr tag div hi lo chk more rest raw hcmd hroom hheld hsched
  obtain ⟨w, hw, hraw, hrun⟩ := runsTo_of_readFinish (addr := addr) hroom hheld hsched
  have hfinish := finish_of_rddec (s := w) (tag := tag) (div := div) (by rw [hw.cmd, hcmd, opcOf_commandWord])
    (by rw [hw.cmd, hcmd, tagCodeOf_commandWord, tagOfCode_codeOfTag])
    (by rw [hw.cmd, hcmd, divCodeOf_commandWord, divOfCode_codeOfDiv])
  rw [encodeRead_eq, addressByte_read] at hw
  refine ⟨startTxn .read addr 0 s, _, rfl, hrun _ hfinish, hw.complete _ _, ?_⟩
  have hraw : w.seq.txnRaw = raw := hraw
  rw [← hraw, ← errOfTxn_decide, ← hw.txnOk, ← hw.bank]
  rfl

/-- Settles O29: the outcome of the read goes to `CALERR`; the sentinel has every bit of a mask. -/
theorem calerrTestsTheFourMasks : Obligations.CalerrTestsTheFourMasks := by
  intro s hi lo chk more rest raw abyte hcmd hroom hheld hsched
  obtain ⟨w, hw, hraw, hrun⟩ := runsTo_of_readFinish (addr := Config.sysStatusAddr) hroom hheld hsched
  have hopc : opcOf w.seq.cmd = 0x6 := by rw [hw.cmd, hcmd]; rfl
  rw [encodeRead_eq, addressByte_read] at hw
  have hraw : w.seq.txnRaw = raw := hraw
  have hbank : (finishCalerr w).bank = { s.bank with
      busy := false, done := true, err := (if chk = hi + lo then .none else .checksum), raw := raw
      calflags := calFlags raw, calerr := calErr raw } := by
    rw [← hraw, ← errOfTxn_decide, ← hw.txnOk, ← hw.bank]
    rfl
  obtain ⟨htest0, htest1, htest2, htest3⟩ := calFlags_getLsbD raw
  refine ⟨startTxn .read Config.sysStatusAddr 0 s, finishCalerr w, rfl, hrun _ (finish_of_calerr hopc),
    hw.complete _ _, ?_⟩
  rw [hbank]
  refine ⟨rfl, rfl, rfl, rfl, rfl, htest0, htest1, htest2, htest3, calErr_eq raw, fun hbad => ?_⟩
  have hones : raw = BitVec.allOnes 16 := if_neg hbad
  rw [htest0, htest1, htest2, htest3, hones]
  simp only [BitVec.allOnes_and, and_self]

/-- A run from a dispatch is that of the command dispatched. -/
theorem runsTo_of_dispatch {n : Nat} {rest : List Event} {s t u v : State} {i : Instr} (hidle : s.seq.st = .idle)
    (hbusy : s.bank.busy = true) (hi : decode (.command s.seq.cmd) = .ok i) (hsched : Scheduled (n + 1) rest s)
    (hexec : exec i (withTurns n rest s) = .next t) (hrun : RunsTo n t u) (hrun' : RunsTo (n + 1) s v) : u = v := by
  have hstep : step s = .next t := by
    rw [step_of_scheduled hsched, seqStep_of_decode (s := withTurns n rest s) hidle hbusy hi, hexec]
  exact (RunsTo.head hstep hrun).unique hrun'

/-- The bank after a run of `RDREG` or `RDDEC` from its dispatch: of the two only `RDDEC` writes the value. -/
theorem bank_of_read_command {s u : State} {addr : RegAddr} {tag : Tag} {div : Div} {hi lo chk : Byte}
    {more : List Byte} {rest : List Event} {n : Nat} (hn : n = if chk = hi + lo then 6 else 7)
    (hcmd : s.seq.cmd = commandWord 0x1 0 0 addr 0 ∨ s.seq.cmd = commandWord 0x3 (codeOfDiv div) (codeOfTag tag) addr 0)
    (hpair : s.seq.cmd = commandWord 0x3 (codeOfDiv div) (codeOfTag tag) addr 0 → pairLegal tag div = true)
    (hidle : s.seq.st = .idle) (hbusy : s.bank.busy = true) (hroom : 2 ≤ s.link.txRoom)
    (hheld : s.link.rxHeld = hi :: lo :: chk :: more) (hsched : Scheduled (n + 1) rest s) (hrun : RunsTo (n + 1) s u) :
    u.bank = { s.bank with
      busy := false, done := true, err := (if chk = hi + lo then .none else .checksum)
      raw := (if chk = hi + lo then hi ++ lo else 0xFFFF)
      val := (if opcOf s.seq.cmd = 0x3 then decodeValue (if chk = hi + lo then hi ++ lo else 0xFFFF) tag div
        else s.bank.val) } := by
  subst hn
  have hturns := scheduled_withTurns (if chk = hi + lo then 6 else 7) rest s
  rcases hcmd with hcmd | hcmd
  · have hi' : decode (.command s.seq.cmd) = .ok (.rdreg addr) := by
      rw [hcmd]
      exact decodeOfEncodeIsTheInstruction (.rdreg addr) rfl
    obtain ⟨t, v, hexec, hrun', -, hbank⟩ := rdreg_completes (s := withTurns _ rest s) hcmd hroom hheld hturns
    rw [← runsTo_of_dispatch hidle hbusy hi' hsched hexec hrun' hrun, hbank, hcmd, opcOf_commandWord,
      if_neg (show ¬(0x1 : BitVec 4) = 0x3 by decide)]
    rfl
  · have hi' : decode (.command s.seq.cmd) = .ok (.rddec addr tag div) := by
      rw [hcmd]
      exact decodeOfEncodeIsTheInstruction (.rddec addr tag div) (hpair hcmd)
    obtain ⟨t, v, hexec, hrun', -, hbank⟩ :=
      rddecReadsAndDecodes (withTurns _ rest s) addr tag div hi lo chk more rest hcmd hroom hheld hturns
    rw [← runsTo_of_dispatch hidle hbusy hi' hsched hexec hrun' hrun, hbank, hcmd, opcOf_commandWord, if_pos rfl]
    rfl

/-- Settles O31: the two runs end with the banks of `bank_of_read_command`, and `FF FF` with its sum `FE` reads as the
sentinel. -/
theorem failureSentinelIsToldApartOnlyByErr : Obligations.FailureSentinelIsToldApartOnlyByErr := by
  intro s s' u u' addr tag div hi lo chk more more' rest rest' hcmd hcmd' hbank hidle hidle' hbusy hpair hroom hroom'
    hheld hheld' hbad hsched hsched' hrun hrun'
  have hgood : (0xFE : Byte) = 0xFF + 0xFF := by decide
  have hvalid := bank_of_read_command (if_pos hgood).symm hcmd hpair hidle hbusy hroom hheld hsched hrun
  have hfailed := bank_of_read_command (if_neg hbad).symm (hcmd' ▸ hcmd) (hcmd' ▸ hpair) hidle' (hbank ▸ hbusy) hroom'
    hheld' hsched' hrun'
  simp only [if_pos hgood] at hvalid
  simp only [if_neg hbad, hbank, hcmd'] at hfailed
  rw [hvalid, hfailed]
  exact ⟨rfl, rfl, rfl⟩

end Sys2Proof.Machine

/-! PROOFS. How a transaction enters its settle delay and leaves its penalty (41_transaction_engine.md R134, R139). -/

namespace Sys2Proof.Machine

/-- Outside `IDLE` the registers hold the transaction of the command, with the counts of the state. -/
theorem holdsTxn_of_inv {s : State} (h : Inv s) (hst : s.seq.st ≠ .idle) : HoldsTxn s.seq ∧ phaseOk s.seq :=
  ⟨(h.inFlight hst).loaded, (h.inFlight hst).phase⟩

/-! ### The settle delay -/

section Settle

variable {s t : State}

theorem startTxn_st (kind : TxnKind) (addr : RegAddr) (data : RegVal) (s : State) :
    (startTxn kind addr data s).seq.st = .tx := by
  cases kind <;> rfl

theorem playEntry_st_ne_settle (table : List InitEntry) (s : State) : (playEntry table s).seq.st ≠ .settle := by
  rcases playEntry_cases table s with ⟨e, -, hplay⟩ | ⟨-, hplay⟩ <;> simp [hplay]

theorem finish_st_ne_settle (h : finish s = .next t) : t.seq.st ≠ .settle := by
  rcases finish_cases h with ⟨-, rfl⟩ | ⟨-, rfl⟩ | ⟨-, tag, div, -, -, rfl⟩ | ⟨-, rfl⟩ | ⟨-, rfl⟩
  · simp [finishRdreg]
  · simp [finishWrreg]
  · simp
  · exact playEntry_st_ne_settle _ _
  · simp [finishCalerr]

theorem seqDispatch_st_ne_settle (h : seqDispatch s = .next t) : t.seq.st ≠ .settle := by
  rcases seqDispatch_cases h with ⟨e, -, rfl⟩ | ⟨data, tag, div, -, rfl⟩ | ⟨-, rfl⟩ | ⟨i, kind, addr, data, -, -, rfl⟩
  · simp [raiseIllegal]
  · simp
  · exact playEntry_st_ne_settle _ _
  · simp [startTxn_st]

theorem validate_st_ne_settle (h : validate s = .next t) : t.seq.st ≠ .settle := by
  rcases validate_cases h with ⟨raw, hfinish⟩ | ⟨hi, lo, chk, rfl⟩ | ⟨-, echo, rfl⟩
  · exact finish_st_ne_settle hfinish
  · simp
  · simp

/-- The Sequencer enters `SETTLE` from `TX` alone, with the last byte of the frame in the buffer (41_transaction_engine.md
R134). -/
theorem seqStep_enters_settle (hinv : Inv s) (hstep : seqStep s = .next t) (hnot : s.seq.st ≠ .settle)
    (hsettle : t.seq.st = .settle) :
    s.seq.st = .tx ∧ t.seq.txIdx = t.seq.txLen ∧ t.seq.dly = Config.settleDelay ∧
      ∃ b, s.seq.tx.toList[s.seq.txLen.toNat - 1]? = some b ∧ t.link.txStream = s.link.txStream ++ [b] := by
  rcases seqStep_cases hstep with rfl | ⟨-, -, hdispatch⟩ | ⟨hst, -⟩ | ⟨hst, -⟩ | ⟨hst, b, held, htake⟩ | ⟨-, hfinish⟩
  · exact absurd hsettle hnot
  · exact absurd hsettle (seqDispatch_st_ne_settle hdispatch)
  · obtain ⟨⟨i, kind, addr, data, -, -, hloaded⟩, hphase⟩ := holdsTxn_of_inv hinv (by simp [hst])
    rw [seqStep_of_tx hst, seqTransmit_of_loaded hloaded, ← hloaded.frame] at hstep
    rcases transmit_cases hstep with ⟨-, rfl⟩ | ⟨b, -, hbyte, rfl⟩
    · exact absurd hsettle hnot
    · rcases txAdvance_cases s.seq.txLen (txSend b s) with ⟨hlast, hadv⟩ | ⟨-, hadv⟩
      · simp only [txSend_seq] at hlast
        simp only [phaseOk, hst] at hphase
        have hidx : s.seq.txLen.toNat - 1 = s.seq.txIdx.toNat := by bv_omega
        rw [List.getElem?_take_of_lt hphase.1] at hbyte
        rw [hadv, hidx]
        exact ⟨hst, hlast, rfl, b, hbyte, rfl⟩
      · rw [hadv] at hsettle
        exact absurd hsettle hnot
  · exact absurd hst hnot
  · rcases htake with ⟨-, rfl⟩ | ⟨-, hvalidate⟩
    · exact absurd hsettle hnot
    · exact absurd hsettle (validate_st_ne_settle hvalidate)
  · exact absurd hsettle (finish_st_ne_settle hfinish)

end Settle

/-- Settles O40: an event of another agent keeps the Sequencer's state or resets it, and only `RX` takes a byte. -/
theorem settleBeginsWhenTheRequestIsFullySent : Obligations.SettleBeginsWhenTheRequestIsFullySent := by
  intro s t hinv hstep
  obtain ⟨hseq, hbank, -, hsent⟩ := nextEvent_keeps_block s
  refine ⟨fun hnot hsettle => ?_, fun hst => ?_⟩
  · rcases step_cases hstep with ⟨hevent, hseqStep⟩ | hkept | ⟨⟨-, ⟨w, hword⟩, -⟩, -⟩ | ⟨-, rfl⟩
    · have henters := seqStep_enters_settle (inv_of_kept hinv hseq hbank) hseqStep (hseq ▸ hnot) hsettle
      rw [hseq, hsent] at henters
      obtain ⟨htx, hrest⟩ := henters
      exact ⟨htx, hevent, hrest⟩
    · exact absurd (hkept.seq ▸ hsettle) hnot
    · rw [hword] at hsettle
      exact absurd hsettle hnot
    · cases hsettle
  · cases linkChange_step hstep with
    | kept hlink | accepts _ hlink | sends _ _ _ _ _ _ hlink => exact .inl (by rw [hlink])
    | delivers b hevent hlink => exact .inr ⟨b, hevent, by rw [hlink]⟩
    | takes _ _ _ hrx => simp [hrx] at hst

/-! ### The penalty -/

theorem decode_eq_begin_iff (w : Word) : decode (.command w) = .ok .beginInit ↔ w = 0x50000000 := by
  constructor
  · intro h
    obtain ⟨henc, -⟩ := encodeOfDecodeIsTheCode _ _ h
    cases henc
    decide
  · rintro rfl
    exact decodeOfEncodeIsTheInstruction .beginInit rfl

/-- `finish` emits no record. -/
theorem finish_log {s t : State} (h : finish s = .next t) : t.log = s.log := by
  rcases finish_cases h with ⟨-, rfl⟩ | ⟨-, rfl⟩ | ⟨-, tag, div, -, -, rfl⟩ | ⟨-, rfl⟩ | ⟨-, rfl⟩
  · rfl
  · rfl
  · rfl
  · rw [nextInit]
    rcases playEntry_cases initTable (setInitIdx (s.seq.initIdx + 1) s) with ⟨e, -, hplay⟩ | ⟨-, hplay⟩ <;> simp [hplay]
  · rfl

/-- Settles O41: the penalty is `finish` after an outcome that is not Ok, which completes every command but `BEGIN`. -/
theorem penaltyEndsWithoutRetry : Obligations.PenaltyEndsWithoutRetry := by
  intro s hinv hst
  obtain ⟨hheld, hphase⟩ := holdsTxn_of_inv hinv (by simp [hst])
  obtain ⟨t, hfinish⟩ := exists_finish_of_holdsTxn hheld
  obtain ⟨i, kind, addr, data, hi, -, -⟩ := hheld
  simp only [phaseOk, hst] at hphase
  obtain ⟨-, -, hbad, -⟩ := hphase
  have hcompletes : i ≠ .beginInit → (s.seq.cmd ≠ 0x50000000 → errOfTxn s.seq.txnOk = .checksum) ∧
      (s.seq.cmd = 0x50000000 → errOfTxn s.seq.txnOk = .none) := by
    intro hne
    refine ⟨fun _ => by rw [hbad]; rfl, fun hcmd => absurd ?_ hne⟩
    rw [← decode_eq_begin_iff, hi] at hcmd
    exact Except.ok.inj hcmd
  refine ⟨t, (seqStep_of_penalty hst).trans hfinish, (linkKept_finish hfinish).link, finish_log hfinish, ?_⟩
  rcases finish_decoded_cases hi hfinish with ⟨a, rfl, rfl⟩ | ⟨a, d, rfl, rfl⟩ | ⟨a, tag, div, rfl, rfl⟩ | ⟨rfl, rfl⟩ |
    ⟨rfl, rfl⟩
  · exact .inl ⟨rfl, rfl, rfl, hcompletes nofun⟩
  · exact .inl ⟨rfl, rfl, rfl, hcompletes nofun⟩
  · exact .inl ⟨rfl, rfl, rfl, hcompletes nofun⟩
  · have hcmd := (decode_eq_begin_iff _).mp hi
    rw [nextInit]
    rcases playEntry_cases initTable (setInitIdx (s.seq.initIdx + 1) s) with ⟨e, he, hplay⟩ | ⟨-, hplay⟩
    · rw [hplay]
      exact .inr ⟨hcmd, rfl, rfl, rfl, e, he, rfl⟩
    · rw [hplay]
      exact .inl ⟨rfl, rfl, rfl, fun hne => absurd hcmd hne, fun _ => rfl⟩
  · exact .inl ⟨rfl, rfl, rfl, hcompletes nofun⟩

end Sys2Proof.Machine

/-! PROOFS. A busy command completes when the Link serves (41_transaction_engine.md R150, 60_exceptions.md R203): every turn of
the Sequencer lowers a bound on the turns left, or completes. -/

namespace Sys2Proof.Machine

/-- The turns that the entries of the table from the index on can take, each five bytes, the delay, the echo and the
penalty. -/
def entriesLeft (s : State) : Nat := 8 * (initTable.length - s.seq.initIdx)

/-- A bound on the turns that a busy command takes to its completion: those of its transaction, and those of the entries from
the index on, whether the command plays them or not. -/
def turnsLeft (s : State) : Nat :=
  match s.seq.st with
  | .idle => 8 * (initTable.length + 1) + 1
  | .tx => s.seq.txLen.toNat - s.seq.txIdx.toNat + 1 + s.seq.rxNeed.toNat + 1 + entriesLeft s
  | .settle => 1 + s.seq.rxNeed.toNat + 1 + entriesLeft s
  | .rx => s.seq.rxNeed.toNat - s.seq.rxCnt.toNat + 1 + entriesLeft s
  | .penalty => 1 + entriesLeft s

/-- The Sequencer's turn keeps the schedule, and it ends the command or leaves fewer turns than `bound`. -/
def Advances (r : Result) (s : State) (bound : Nat) : Prop :=
  ∃ t, r = .next t ∧ t.pending = s.pending ∧ (t.bank.busy = false ∨ turnsLeft t < bound)

section Progress

variable {s t : State}

theorem turnsLeft_pos (s : State) : 0 < turnsLeft s := by
  unfold turnsLeft
  split <;> omega

/-- A transaction takes at most eight turns. -/
theorem turnsLeft_startTxn (kind : TxnKind) (addr : RegAddr) (data : RegVal) (s : State) :
    turnsLeft (startTxn kind addr data s) ≤ 8 + entriesLeft s := by
  cases kind with
  | read => exact Nat.add_le_add_right (show 2 - 0 + 1 + 3 + 1 ≤ 8 by decide) _
  | write => exact Nat.add_le_add_right (show 5 - 0 + 1 + 1 + 1 ≤ 8 by decide) _

theorem startTxn_pending (kind : TxnKind) (addr : RegAddr) (data : RegVal) (s : State) :
    (startTxn kind addr data s).pending = s.pending := by
  cases kind <;> rfl

theorem Advances.mono {r : Result} {m n : Nat} (h : Advances r s m) (hle : m ≤ n) : Advances r s n := by
  obtain ⟨t, hr, hpending, hturns⟩ := h
  exact ⟨t, hr, hpending, hturns.imp_right (Nat.lt_of_lt_of_le · hle)⟩

theorem advances_complete (e : ErrCode) {u : State} (hpending : u.pending = s.pending) (n : Nat) :
    Advances (.next (complete e u)) s n :=
  ⟨_, rfl, hpending, .inl rfl⟩

theorem advances_startTxn (kind : TxnKind) (addr : RegAddr) (data : RegVal) {u : State}
    (hpending : u.pending = s.pending) :
    Advances (.next (startTxn kind addr data u)) s (9 + entriesLeft u) :=
  ⟨_, rfl, (startTxn_pending ..).trans hpending, .inr (Nat.lt_of_le_of_lt (turnsLeft_startTxn ..) (by omega))⟩

theorem advances_playEntry {u : State} (hpending : u.pending = s.pending) :
    Advances (.next (playEntry initTable u)) s (9 + entriesLeft u) := by
  rcases playEntry_cases initTable u with ⟨e, -, hplay⟩ | ⟨-, hplay⟩
  · rw [hplay]
    exact advances_startTxn _ _ _ hpending
  · rw [hplay]
    exact advances_complete _ hpending _

theorem entriesLeft_le (s : State) : entriesLeft s ≤ 8 * initTable.length := by
  unfold entriesLeft
  omega

/-- The next entry takes its turns out of those of the entries left. -/
theorem advances_nextInit (hidx : s.seq.initIdx < initTable.length) :
    Advances (.next (nextInit initTable s)) s (1 + entriesLeft s) := by
  refine (advances_playEntry (u := setInitIdx (s.seq.initIdx + 1) s) rfl).mono ?_
  simp only [entriesLeft, setInitIdx_initIdx]
  omega

theorem initIdx_lt_of_txn {idx : Nat} {txn : TxnKind × RegAddr × RegVal} (h : txnOfCommand .beginInit idx = some txn) :
    idx < initTable.length := by
  obtain ⟨e, he, -⟩ := Option.map_eq_some_iff.mp h
  exact (List.getElem?_eq_some_iff.mp he).1

/-- A command whose transaction has ended completes, or goes on to the next entry. -/
theorem advances_finish (h : HoldsTxn s.seq) : Advances (finish s) s (1 + entriesLeft s) := by
  obtain ⟨t, hfinish⟩ := exists_finish_of_holdsTxn h
  obtain ⟨i, kind, addr, data, hi, htxn, -⟩ := h
  rw [hfinish]
  rcases finish_decoded_cases hi hfinish with ⟨a, rfl, rfl⟩ | ⟨a, d, rfl, rfl⟩ | ⟨a, tag, div, rfl, rfl⟩ | ⟨rfl, rfl⟩ |
    ⟨rfl, rfl⟩
  · exact advances_complete _ rfl _
  · exact advances_complete _ rfl _
  · exact advances_complete _ rfl _
  · exact advances_nextInit (initIdx_lt_of_txn htxn)
  · exact advances_complete _ rfl _

/-- A whole response leaves the penalty at most. -/
theorem advances_validate {u : State} (hpending : u.pending = s.pending) (h : HoldsTxn u.seq) :
    Advances (validate u) s (2 + entriesLeft u) := by
  have hpenalty : ∀ v : State, v.pending = u.pending → v.seq.st = .penalty → v.seq.initIdx = u.seq.initIdx →
      Advances (.next v) s (2 + entriesLeft u) := by
    intro v hv hst hidx
    refine ⟨v, rfl, hv.trans hpending, .inr ?_⟩
    simp only [turnsLeft, hst, entriesLeft, hidx]
    omega
  have hfinish : ∀ v : State, v.pending = u.pending → SameTxn u.seq v.seq →
      Advances (finish v) s (2 + entriesLeft u) := by
    intro v hv hsame
    obtain ⟨t, ht, hp, hturns⟩ := advances_finish (h.of_sameTxn hsame)
    have hidx : entriesLeft v = entriesLeft u := by rw [entriesLeft, hsame, entriesLeft]
    exact ⟨t, ht, (hp.trans hv).trans hpending, hturns.imp_right (by omega)⟩
  rw [validate_eq]
  cases u.seq.op with
  | read =>
    by_cases hsum : u.seq.rx[0] + u.seq.rx[1] = u.seq.rx[2]
    · simp only [execFrameRdResp_of_sum hsum]
      exact hfinish _ rfl rfl
    · simp only [execFrameRdResp_of_ne_sum hsum]
      exact hpenalty _ rfl rfl rfl
  | write =>
    by_cases hecho : u.seq.rx[0] = u.seq.chk
    · simp only [execFrameWrAck_of_eq hecho]
      exact hfinish _ rfl rfl
    · simp only [execFrameWrAck_of_ne hecho]
      exact hpenalty _ rfl rfl rfl

/-- Dispatch completes, or starts a transaction. -/
theorem advances_seqDispatch (s : State) : Advances (seqDispatch s) s (8 * (initTable.length + 1) + 1) := by
  have hstart : ∀ kind addr data, Advances (.next (startTxn kind addr data s)) s (8 * (initTable.length + 1) + 1) := by
    intro kind addr data
    have hle := entriesLeft_le s
    exact (advances_startTxn kind addr data rfl).mono (by omega)
  unfold seqDispatch
  split
  · rename_i i hi
    rcases decode_command_cases hi with ⟨a, rfl, -⟩ | ⟨a, d, rfl, -⟩ | ⟨a, tag, div, rfl, -⟩ | ⟨d, tag, div, rfl, -⟩ |
      ⟨rfl, -⟩ | ⟨rfl, -⟩
    · exact hstart _ _ _
    · exact hstart _ _ _
    · exact hstart _ _ _
    · exact advances_complete _ rfl _
    · have hle := entriesLeft_le (setInitIdx 0 s)
      exact (advances_playEntry (u := setInitIdx 0 s) rfl).mono (by omega)
    · exact hstart _ _ _
  · exact advances_complete _ rfl _

/-- `TX` with room hands a byte over. -/
theorem advances_seqTransmit (h : HoldsTxn s.seq) (hst : s.seq.st = .tx) (hphase : phaseOk s.seq)
    (hroom : 0 < s.link.txRoom) : Advances (seqTransmit s) s (turnsLeft s) := by
  obtain ⟨i, kind, addr, data, -, -, hloaded⟩ := h
  simp only [phaseOk, hst] at hphase
  have hidx : s.seq.txIdx.toNat < (frameOf kind addr data).length := by rw [← hloaded.txLen]; exact hphase.1
  rw [seqTransmit_of_loaded hloaded, transmit_of_room hroom hidx]
  rcases txAdvance_cases s.seq.txLen (txSend (frameOf kind addr data)[s.seq.txIdx.toNat] s) with ⟨-, hadv⟩ | ⟨-, hadv⟩
  · rw [hadv]
    refine ⟨_, rfl, rfl, .inr ?_⟩
    simp only [turnsLeft, hst, txSend_seq, entriesLeft]
    omega
  · rw [hadv]
    have hnext : (s.seq.txIdx + 1).toNat = s.seq.txIdx.toNat + 1 := by bv_omega
    refine ⟨_, rfl, rfl, .inr ?_⟩
    simp only [turnsLeft, hst, txSend_seq, entriesLeft, hnext]
    omega

/-- `RX` with a byte held takes it. -/
theorem advances_seqReceive (h : HoldsTxn s.seq) (hst : s.seq.st = .rx) (hphase : phaseOk s.seq)
    (hheld : s.link.rxHeld ≠ []) : Advances (seqReceive s) s (turnsLeft s) := by
  obtain ⟨b, held, hheld⟩ := List.exists_cons_of_ne_nil hheld
  simp only [phaseOk, hst] at hphase
  obtain ⟨-, hcnt⟩ := hphase
  have hfree : s.seq.rxCnt ≠ 3 := by bv_omega
  by_cases hlast : s.seq.rxCnt + 1 = s.seq.rxNeed
  · rw [seqReceive_of_last hheld hfree hlast]
    refine (advances_validate (u := rxTake b held s) rfl (h.of_sameTxn rfl)).mono ?_
    simp only [turnsLeft, hst, entriesLeft, rxTake_initIdx]
    omega
  · rw [seqReceive_of_more hheld hfree hlast]
    have hnext : (s.seq.rxCnt + 1).toNat = s.seq.rxCnt.toNat + 1 := by bv_omega
    refine ⟨_, rfl, rfl, .inr ?_⟩
    simp only [turnsLeft, rxTake_st, hst, rxTake_rxNeed, rxTake_rxCnt, hnext, entriesLeft, rxTake_initIdx]
    omega

/-- A busy command whose Link serves comes nearer to its completion with every turn of the Sequencer. -/
theorem advances_seqStep (hinv : Inv s) (hbusy : s.bank.busy = true) (hroom : 0 < s.link.txRoom)
    (hheld : s.link.rxHeld ≠ []) : Advances (seqStep s) s (turnsLeft s) := by
  cases hst : s.seq.st with
  | idle =>
    simp only [seqStep, turnsLeft, hst, hbusy, if_true]
    exact advances_seqDispatch s
  | tx =>
    obtain ⟨htxn, hphase⟩ := holdsTxn_of_inv hinv (by simp [hst])
    rw [seqStep_of_tx hst]
    exact advances_seqTransmit htxn hst hphase hroom
  | settle =>
    obtain ⟨htxn, hphase⟩ := holdsTxn_of_inv hinv (by simp [hst])
    simp only [phaseOk, hst] at hphase
    rw [seqStep_of_settle hst]
    refine ⟨_, rfl, rfl, .inr ?_⟩
    simp only [turnsLeft, hst, seqSettle, entriesLeft]
    omega
  | rx =>
    obtain ⟨htxn, hphase⟩ := holdsTxn_of_inv hinv (by simp [hst])
    rw [seqStep_of_rx hst]
    exact advances_seqReceive htxn hst hphase hheld
  | penalty =>
    obtain ⟨htxn, -⟩ := holdsTxn_of_inv hinv (by simp [hst])
    rw [seqStep_of_penalty hst, turnsLeft, hst]
    exact advances_finish htxn

/-- The bound holds wherever the command stands. -/
theorem turnsLeft_le (hinv : Inv s) : turnsLeft s ≤ 8 * (initTable.length + 1) + 1 := by
  by_cases hst : s.seq.st = .idle
  · rw [turnsLeft, hst]
  · obtain ⟨⟨i, kind, addr, data, -, -, hloaded⟩, -⟩ := holdsTxn_of_inv hinv hst
    have hentries := entriesLeft_le s
    have hbytes : s.seq.txLen.toNat + s.seq.rxNeed.toNat ≤ 6 := by
      rw [hloaded.txLen, hloaded.rxNeed]
      cases kind with
      | read => exact show 2 + 3 ≤ 6 by decide
      | write => exact show 5 + 1 ≤ 6 by decide
    unfold turnsLeft
    split <;> omega

end Progress

/-- A step spends one byte of the Link's room or of the bytes it holds, at most. -/
theorem LinkChange.spends_at_most_one {e : Event} {q : SeqRegs} {l : LinkState} {t : State} (h : LinkChange e q l t) :
    l.txRoom ≤ t.link.txRoom + 1 ∧ l.rxHeld.length ≤ t.link.rxHeld.length + 1 := by
  cases h with
  | kept hlink =>
    rw [hlink]
    exact ⟨Nat.le_succ _, Nat.le_succ _⟩
  | accepts _ hlink =>
    rw [hlink]
    exact ⟨Nat.le_add_right _ 2, Nat.le_succ _⟩
  | delivers b _ hlink =>
    rw [hlink, List.length_append]
    exact ⟨Nat.le_succ _, Nat.le_add_right _ 2⟩
  | sends b _ _ _ _ _ hlink =>
    rw [hlink]
    exact ⟨Nat.sub_le_iff_le_add.mp (le_refl _), Nat.le_succ _⟩
  | takes b held _ _ hheld _ hlink =>
    rw [hlink, hheld]
    exact ⟨Nat.le_succ _, le_refl _⟩

/-- A busy command completes within its turns left, if the Link serves as many. -/
theorem completes_within_turnsLeft {n : Nat} {rest : List Event} {s : State} (hinv : Inv s) (hbusy : s.bank.busy = true)
    (hturns : turnsLeft s ≤ n) (hsched : Scheduled n rest s) (hroom : n ≤ s.link.txRoom)
    (hheld : n ≤ s.link.rxHeld.length) :
    ∃ k u, k ≤ n ∧ RunsTo k s u ∧ u.seq.st = .idle ∧ u.bank.busy = false ∧ u.bank.done = true := by
  induction n generalizing s with
  | zero => exact absurd hturns (Nat.not_le_of_lt (turnsLeft_pos s))
  | succ n ih =>
    have hinv' : Inv (withTurns n rest s) := inv_of_kept hinv rfl rfl
    have hne : s.link.rxHeld ≠ [] := List.ne_nil_of_length_pos (Nat.zero_lt_of_lt hheld)
    obtain ⟨t, hseqStep, hpending, hout⟩ := advances_seqStep hinv' hbusy (Nat.zero_lt_of_lt hroom) hne
    have hstep : step s = .next t := (step_of_scheduled hsched).trans hseqStep
    rcases (keepsOrCompletes_seqStep hseqStep).bank with hbank | ⟨hfree, hdone, hidle⟩
    · have hbusy' : t.bank.busy = true := hbank ▸ hbusy
      have hfewer : turnsLeft t < turnsLeft s := hout.resolve_left (by simp [hbusy'])
      obtain ⟨hroom', hheld'⟩ := (linkChange_seqStep hseqStep).spends_at_most_one
      obtain ⟨k, u, hk, hrun, hend⟩ := ih (inv_seqStep hinv' hseqStep) hbusy' (by omega) hpending
        (Nat.le_of_succ_le_succ (hroom.trans hroom')) (Nat.le_of_succ_le_succ (hheld.trans hheld'))
      exact ⟨k + 1, u, Nat.succ_le_succ hk, .head hstep hrun, hend⟩
    · exact ⟨1, t, Nat.le_add_left 1 n, .single hstep, hidle, hfree, hdone⟩

/-- Settles O42: the bound of the statement is one on the turns left. -/
theorem busyCommandCompletesWhenTheLinkServes : Obligations.BusyCommandCompletesWhenTheLinkServes := by
  intro s rest hinv hbusy n hsched hroom hheld
  exact completes_within_turnsLeft hinv hbusy (turnsLeft_le hinv) hsched hroom hheld

end Sys2Proof.Machine

/-! PROOFS. The numerator, and `DECODE` at its dispatch (42_telemetry_decoder.md R161, R163, R166, R168). -/

namespace Sys2Proof.Machine

theorem toNat_and_add_of_bit15 {raw : RegVal} (h : raw.getLsbD 15 = true) : (raw &&& 0x7FFF).toNat + 32768 = raw.toNat := by
  have hmask : (raw &&& 0x7FFF).toNat = raw.toNat % 2 ^ 15 := Nat.and_two_pow_sub_one_eq_mod raw.toNat 15
  have hbit : raw.toNat / 2 ^ 15 % 2 = 1 := by simpa [BitVec.getLsbD, Nat.testBit_eq_decide_div_mod_eq] using h
  have hlt := raw.isLt
  omega

/-- A set bit 15 makes sign-magnitude 32768 minus the unsigned value, under `SMS` alone. -/
theorem numerator_eq (raw : RegVal) (tag : Tag) :
    numerator raw tag = if tag = .sms ∧ raw.getLsbD 15 = true then 32768 - (raw.toNat : Int) else raw.toNat := by
  cases tag with
  | raw => rfl
  | usc => rfl
  | sms =>
    change smag16 raw = _
    by_cases hbit : raw.getLsbD 15 = true
    · have hmag := toNat_and_add_of_bit15 hbit
      rw [smag16, if_pos hbit, if_pos ⟨rfl, hbit⟩]
      omega
    · rw [smag16, if_neg hbit, if_neg fun h => hbit h.2]

/-- Settles O32: with bit 15 set the two readings sum to twice the unsigned value less 98304. -/
theorem signMagnitudeIsNotTwosComplement : Obligations.SignMagnitudeIsNotTwosComplement := by
  intro raw
  refine ⟨rfl, rfl, fun hclear => ?_, fun hset => ?_, by decide, by decide, by decide⟩
  · rw [numerator_eq, if_neg fun h => Bool.false_ne_true (hclear.symm.trans h.2)]
  · have hnum : numerator raw .sms = 32768 - (raw.toNat : Int) := by rw [numerator_eq, if_pos ⟨rfl, hset⟩]
    have hmag := toNat_and_add_of_bit15 hset
    have htwos : raw.toInt = (raw.toNat : Int) - 65536 := by
      rw [BitVec.toInt_eq_toNat_cond, if_neg (by omega)]
      rfl
    refine ⟨hnum, htwos, ?_⟩
    rw [hnum, htwos, ← BitVec.toNat_inj]
    change _ ↔ raw.toNat = 49152
    omega

theorem exec_decode (data : RegVal) (tag : Tag) (div : Div) (s : State) :
    exec (.decode data tag div) s = execDecode data tag div s := rfl

/-- The divisions of a tag and a code: none under `RAW`. -/
def decodeDivisors (tag : Tag) (div : Div) : List Nat := if tag = .raw then [] else divisorsOf div

theorem decodeValue_eq_foldl (raw : RegVal) (tag : Tag) (div : Div) :
    decodeValue raw tag div = (decodeDivisors tag div).foldl fdiv (f64OfInt (numerator raw tag)) := by
  cases tag <;> rfl

/-- Settles O28: the numerator is that of `numerator_eq`; `RAW` has no division, another tag those of its code. -/
theorem decodeCompletesAtDispatch : Obligations.DecodeCompletesAtDispatch := by
  intro s data tag div x
  rw [exec_decode, execDecode, decodeValue_eq_foldl, numerator_eq, decodeDivisors]
  by_cases htag : tag = .raw
  · rw [if_pos htag, if_pos htag]
    rfl
  · rw [if_neg htag, if_neg htag]
    cases div <;> rfl

end Sys2Proof.Machine

/-! PROOFS. Division is correctly rounded (42_telemetry_decoder.md R162): the quotient is counted in units of its last place,
where the result is the nearest whole number and every finite value a whole number or too small. -/

namespace Sys2Proof.Machine

/-- The unit in the last place for an exponent field `e` below a significand's leading bit. -/
def ulp (e : Nat) : ℚ := 2 ^ ((e : Int) - 1074)

theorem ulp_pos (e : Nat) : 0 < ulp e := zpow_pos two_pos _

/-- A power of two, of either sign, as a quotient of naturals. -/
theorem two_zpow_eq_div (k : Int) : (2 : ℚ) ^ k = 2 ^ k.toNat / 2 ^ (-k).toNat := by
  obtain ⟨n, rfl | rfl⟩ := k.eq_nat_or_neg
  · simp
  · simp

/-- `q` is the significand, in units of `ulp e`, of `v` rounded to the nearest, a tie to the even one; it has 53 bits unless
`v` is subnormal, or carries to `2 ^ 53`. -/
structure RoundsTo (v : ℚ) (e q : Nat) : Prop where
  half : |q - v / ulp e| ≤ 1 / 2
  tie : |q - v / ulp e| = 1 / 2 → q % 2 = 0
  lt : v / ulp e < 2 ^ 53
  normal : e = 0 ∨ 2 ^ 52 ≤ v / ulp e

section Quotient

variable {n d : Nat}

/-- `n / d` in its whole and fractional parts. -/
theorem cast_div_eq (n : Nat) (hd : 0 < d) : (n / d : ℚ) = (n / d : Nat) + (n % d : Nat) / (d : ℚ) := by
  have hd' : (d : ℚ) ≠ 0 := by positivity
  field_simp
  exact_mod_cast (Nat.div_add_mod n d).symm

theorem mod_div_lt_half_iff (n : Nat) (hd : 0 < d) : (n % d : Nat) / (d : ℚ) < 1 / 2 ↔ 2 * (n % d) < d := by
  rw [div_lt_div_iff₀ (by exact_mod_cast hd) two_pos, ← @Nat.cast_lt ℚ]
  push_cast
  rw [one_mul, mul_comm]

theorem half_lt_mod_div_iff (n : Nat) (hd : 0 < d) : 1 / 2 < (n % d : Nat) / (d : ℚ) ↔ d < 2 * (n % d) := by
  rw [div_lt_div_iff₀ two_pos (by exact_mod_cast hd), ← @Nat.cast_lt ℚ]
  push_cast
  rw [one_mul, mul_comm (2 : ℚ)]

/-- Rounding is off by at most one half, and by one half only to an even number. -/
theorem roundQuotient_half (n : Nat) (hd : 0 < d) :
    |(roundQuotient n d : ℚ) - n / d| ≤ 1 / 2 ∧
      (|(roundQuotient n d : ℚ) - n / d| = 1 / 2 → roundQuotient n d % 2 = 0) := by
  have hd' : (0 : ℚ) < d := by exact_mod_cast hd
  have hfrac : (0 : ℚ) ≤ (n % d : Nat) / (d : ℚ) ∧ (n % d : Nat) / (d : ℚ) < 1 :=
    ⟨by positivity, (div_lt_one hd').mpr (by exact_mod_cast Nat.mod_lt n hd)⟩
  have hlt := mod_div_lt_half_iff n hd
  have hgt := half_lt_mod_div_iff n hd
  rw [cast_div_eq n hd]
  generalize ((n % d : Nat) : ℚ) / d = f at *
  unfold roundQuotient
  split
  next hup =>
    have hf : 1 / 2 ≤ f := not_lt.mp (hlt.not.mpr (by omega))
    have habs : |((n / d + 1 : Nat) : ℚ) - ((n / d : Nat) + f)| = 1 - f := by
      push_cast
      rw [abs_of_nonneg (by linarith)]
      ring
    rw [habs]
    refine ⟨by linarith, fun h => ?_⟩
    have := hgt.not.mp (by linarith)
    omega
  next hdown =>
    have hf : f ≤ 1 / 2 := not_lt.mp (hgt.not.mpr (by omega))
    have habs : |((n / d : Nat) : ℚ) - ((n / d : Nat) + f)| = f := by
      rw [sub_add_cancel_left, abs_neg, abs_of_nonneg hfrac.1]
    rw [habs]
    refine ⟨hf, fun h => ?_⟩
    have := hlt.not.mp (by linarith)
    have := hgt.not.mp (by linarith)
    omega

/-- `n` lies between two powers of two. -/
theorem log2_bounds (hn : n ≠ 0) : (2 : ℚ) ^ (n.log2 : Int) ≤ n ∧ (n : ℚ) < 2 ^ ((n.log2 : Int) + 1) := by
  constructor
  · exact_mod_cast Nat.log2_self_le hn
  · exact_mod_cast Nat.lt_log2_self (n := n)

/-- The exponent is that of the power of two just below the quotient. -/
theorem binaryExponent_bounds (hn : n ≠ 0) (hd : d ≠ 0) :
    (2 : ℚ) ^ binaryExponent n d ≤ n / d ∧ (n / d : ℚ) < 2 ^ (binaryExponent n d + 1) := by
  obtain ⟨hnge, hnlt⟩ := log2_bounds hn
  obtain ⟨hdge, hdlt⟩ := log2_bounds hd
  have hd' : (0 : ℚ) < d := by exact_mod_cast Nat.pos_of_ne_zero hd
  set k : Int := (n.log2 : Int) - d.log2 with hk
  have htest : d * 2 ^ k.toNat ≤ n * 2 ^ (-k).toNat ↔ (2 : ℚ) ^ k ≤ n / d := by
    rw [two_zpow_eq_div, div_le_div_iff₀ (by positivity) hd', ← @Nat.cast_le ℚ, mul_comm d]
    push_cast
    rfl
  have hupper : (n / d : ℚ) < 2 ^ (k + 1) := by
    rw [div_lt_iff₀ hd']
    calc (n : ℚ) < 2 ^ ((n.log2 : Int) + 1) := hnlt
      _ = 2 ^ (k + 1) * 2 ^ (d.log2 : Int) := by rw [← zpow_add₀ two_ne_zero]; congr 1; omega
      _ ≤ 2 ^ (k + 1) * d := by gcongr
  have hlower : (2 : ℚ) ^ (k - 1) ≤ n / d := by
    rw [le_div_iff₀ hd']
    calc (2 : ℚ) ^ (k - 1) * d ≤ 2 ^ (k - 1) * 2 ^ ((d.log2 : Int) + 1) := by gcongr
      _ = 2 ^ (n.log2 : Int) := by rw [← zpow_add₀ two_ne_zero]; congr 1; omega
      _ ≤ n := hnge
  unfold binaryExponent
  simp only [← hk]
  split
  next h => exact ⟨htest.mp h, hupper⟩
  next h => exact ⟨hlower, by rw [sub_add_cancel]; exact not_le.mp (htest.not.mp h)⟩

/-- The magnitude bits are the exponent field and the rounded significand of the quotient. -/
theorem roundMagnitude_roundsTo (n : Nat) (hd : 0 < d) :
    ∃ e q, roundMagnitude n d = e * 2 ^ 52 + q ∧ RoundsTo (n / d) e q := by
  by_cases hn : n = 0
  · subst hn
    exact ⟨0, 0, rfl, by simp, by simp, by simp, .inl rfl⟩
  · obtain ⟨hge, hlt⟩ := binaryExponent_bounds hn hd.ne'
    set k := binaryExponent n d with hk
    obtain ⟨e, he⟩ : ∃ e : Nat, (e : Int) - 1074 = max (k - 52) (-1074) :=
      ⟨(max (k - 52) (-1074) + 1074).toNat, by omega⟩
    have hscaled : ((n * 2 ^ (-((e : Int) - 1074)).toNat : Nat) : ℚ) / (d * 2 ^ ((e : Int) - 1074).toNat : Nat) =
        n / d / ulp e := by
      rw [ulp, two_zpow_eq_div]
      push_cast
      field_simp
    obtain ⟨hhalf, htie⟩ := roundQuotient_half (n * 2 ^ (-((e : Int) - 1074)).toNat)
      (d := d * 2 ^ ((e : Int) - 1074).toNat) (by positivity)
    rw [hscaled] at hhalf htie
    refine ⟨e, _, ?_, hhalf, htie, ?_, ?_⟩
    · simp only [roundMagnitude, if_neg hn, ← hk, ← he, sub_add_cancel, Int.toNat_natCast]
    · rw [div_lt_iff₀ (ulp_pos e), ulp, ← zpow_natCast, ← zpow_add₀ two_ne_zero]
      exact hlt.trans_le (zpow_le_zpow_right₀ one_le_two (by omega))
    · refine or_iff_not_imp_left.mpr fun he0 => ?_
      rw [le_div_iff₀ (ulp_pos e), ulp, ← zpow_natCast, ← zpow_add₀ two_ne_zero]
      exact (zpow_le_zpow_right₀ one_le_two (by omega)).trans hge

end Quotient

section Rounded

variable {v : ℚ} {e q : Nat}

/-- A whole number of units below `v` is not passed in rounding. -/
theorem RoundsTo.le_of_cast_le (h : RoundsTo v e q) {k : Nat} (hk : (k : ℚ) ≤ v / ulp e) : k ≤ q := by
  have hhalf := (abs_le.mp h.half).1
  have hlt : (k : ℚ) < (q + 1 : Nat) := by push_cast; linarith
  exact Nat.le_of_lt_succ (by exact_mod_cast hlt)

/-- Nor is one above `v`. -/
theorem RoundsTo.le_of_le_cast (h : RoundsTo v e q) {k : Nat} (hk : v / ulp e ≤ k) : q ≤ k := by
  have hhalf := (abs_le.mp h.half).2
  have hlt : (q : ℚ) < (k + 1 : Nat) := by push_cast; linarith
  exact Nat.le_of_lt_succ (by exact_mod_cast hlt)

theorem RoundsTo.le_two_pow (h : RoundsTo v e q) : q ≤ 2 ^ 53 :=
  h.le_of_le_cast (by exact_mod_cast h.lt.le)

theorem RoundsTo.normal_significand (h : RoundsTo v e q) : e = 0 ∨ 2 ^ 52 ≤ q :=
  h.normal.imp_right fun hw => h.le_of_cast_le (by exact_mod_cast hw)

/-- No more than the greatest finite value does not round to the infinity. -/
theorem RoundsTo.magnitude_lt (h : RoundsTo v e q) (hv : v ≤ (2 ^ 53 - 1 : Nat) * ulp 2045) :
    e * 2 ^ 52 + q < 2047 * 2 ^ 52 := by
  have hq := h.le_two_pow
  rcases Nat.lt_or_ge e 2045 with hsmall | hbig
  · omega
  · have hw : (2 : ℚ) ^ 52 ≤ v / ulp e := h.normal.resolve_left (by omega)
    have hle : e ≤ 2045 := by
      by_contra hgt
      have hulp : ulp 2046 ≤ ulp e := zpow_le_zpow_right₀ one_le_two (by omega)
      have hstep : ulp 2046 = 2 * ulp 2045 := by
        rw [ulp, ulp, ← zpow_one_add₀ two_ne_zero]
        congr 1
      rw [le_div_iff₀ (ulp_pos e)] at hw
      have := ulp_pos 2045
      push_cast at hv
      linarith
    obtain rfl : e = 2045 := by omega
    have := h.le_of_le_cast ((div_le_iff₀ (ulp_pos 2045)).mpr hv)
    omega

/-- Rounding loses at most half of what is at least one unit. -/
theorem RoundsTo.half_le (h : RoundsTo v e q) (hv : ulp 0 ≤ v) : v / 2 ≤ q * ulp e := by
  have hulp := ulp_pos e
  have hunit : 1 ≤ v / ulp e := by
    rcases h.normal with rfl | hw
    · exact (one_le_div hulp).mpr hv
    · exact le_trans (by norm_num) hw
  have hhalf := (abs_le.mp h.half).1
  rw [← div_le_iff₀ hulp]
  calc v / 2 / ulp e = v / ulp e / 2 := div_right_comm ..
    _ ≤ q := by linarith

/-- Another whole number than the rounded significand is at least one half away. -/
theorem RoundsTo.half_le_abs_sub (h : RoundsTo v e q) {i : Int} (hne : (i : ℚ) ≠ q) : 1 / 2 ≤ |i - v / ulp e| := by
  have hdist : (1 : ℚ) ≤ |(i : ℚ) - q| := by
    exact_mod_cast Int.one_le_abs (sub_ne_zero.mpr fun heq => hne (by exact_mod_cast heq))
  have htri := abs_sub_le (i : ℚ) (v / ulp e) q
  rw [abs_sub_comm (v / ulp e)] at htri
  linarith [h.half]

theorem RoundsTo.nearest_int (h : RoundsTo v e q) (i : Int) : |q - v / ulp e| ≤ |i - v / ulp e| := by
  by_cases hi : (i : ℚ) = q
  · rw [hi]
  · exact h.half.trans (h.half_le_abs_sub hi)

/-- What a finite pattern can be in units of `ulp e`: a whole number, or, with a smaller unit of its own, less than any
normal significand. -/
def OnGrid (e : Nat) (t : ℚ) : Prop := (∃ i : Int, t = i) ∨ (e ≠ 0 ∧ t < 2 ^ 52)

/-- The rounded significand is the nearest of what a finite pattern can be, and even where another one is as near. -/
theorem RoundsTo.nearest (h : RoundsTo v e q) {t : ℚ} (ht : OnGrid e t) :
    |q - v / ulp e| ≤ |t - v / ulp e| ∧ (|q - v / ulp e| = |t - v / ulp e| → t ≠ q → q % 2 = 0) := by
  rcases ht with ⟨i, rfl⟩ | ⟨he, hlow⟩
  · exact ⟨h.nearest_int i, fun heq hne => h.tie (h.half.antisymm (heq ▸ h.half_le_abs_sub hne))⟩
  · have hw := h.normal.resolve_left he
    have hedge := h.nearest_int (2 ^ 52)
    push_cast at hedge
    have hfarther : |(2 : ℚ) ^ 52 - v / ulp e| < |t - v / ulp e| := by
      rw [abs_of_nonpos (by linarith), abs_of_neg (by linarith)]
      linarith
    have hlt := hedge.trans_lt hfarther
    exact ⟨hlt.le, fun heq => absurd heq hlt.ne⟩

end Rounded

section Pattern

variable {x : Double}

/-- The factor of a sign bit. -/
def signFactor (sign : Bool) : ℚ := if sign then -1 else 1

theorem signFactor_mul_self (sign : Bool) : signFactor sign * signFactor sign = 1 := by
  cases sign <;> simp [signFactor]

@[simp] theorem abs_signFactor (sign : Bool) : |signFactor sign| = 1 := by
  cases sign <;> simp [signFactor]

theorem abs_f64Value (x : Double) : |f64Value x| = f64Significand x * 2 ^ f64Scale x := by
  change |signFactor (f64Sign x) * _ * _| = _
  rw [abs_mul, abs_mul, abs_signFactor, one_mul, Nat.abs_cast, abs_of_pos (zpow_pos two_pos _)]

theorem f64Value_eq_signFactor_mul_abs (x : Double) : f64Value x = signFactor (f64Sign x) * |f64Value x| := by
  rw [abs_f64Value, ← mul_assoc]
  rfl

theorem f64Fraction_lt (x : Double) : f64Fraction x < 2 ^ 52 := (x.extractLsb' 0 52).isLt

/-- A finite value of either sign is a whole number, of at most 53 bits, of units. -/
theorem exists_mul_ulp (h : f64Finite x = true) (sign : Bool) :
    ∃ (m : Int) (e : Nat), |m| ≤ 2 ^ 53 - 1 ∧ e ≤ 2045 ∧ signFactor sign * f64Value x = m * ulp e := by
  have hexp : f64Exponent x < 2 ^ 11 := (x.extractLsb' 52 11).isLt
  have hne : f64Exponent x ≠ 2047 := of_decide_eq_true h
  have hfrac := f64Fraction_lt x
  have hsig : f64Significand x ≤ 2 ^ 53 - 1 := by unfold f64Significand; split <;> omega
  have hscale : (2 : ℚ) ^ f64Scale x = ulp (f64Exponent x - 1) := by
    rw [ulp, f64Scale]
    congr 1
    split <;> omega
  refine ⟨(if sign = f64Sign x then 1 else -1) * f64Significand x, f64Exponent x - 1, ?_, by omega, ?_⟩
  · split <;> simp <;> omega
  · rw [f64Value_eq_signFactor_mul_abs, abs_f64Value, hscale]
    cases sign <;> cases f64Sign x <;> simp [signFactor]

theorem abs_f64Value_le (h : f64Finite x = true) : |f64Value x| ≤ (2 ^ 53 - 1 : Nat) * ulp 2045 := by
  obtain ⟨m, e, hm, he, heq⟩ := exists_mul_ulp h false
  rw [signFactor, if_neg Bool.false_ne_true, one_mul] at heq
  rw [heq, abs_mul, abs_of_pos (ulp_pos e)]
  have hulp : ulp e ≤ ulp 2045 := zpow_le_zpow_right₀ one_le_two (by omega)
  have hm' : |(m : ℚ)| ≤ (2 ^ 53 - 1 : Nat) := by exact_mod_cast hm
  exact mul_le_mul hm' hulp (ulp_pos e).le (by positivity)

theorem onGrid_of_finite (h : f64Finite x = true) (sign : Bool) (e : Nat) :
    OnGrid e (signFactor sign * f64Value x / ulp e) := by
  obtain ⟨m, f, hm, -, heq⟩ := exists_mul_ulp h sign
  have hratio : signFactor sign * f64Value x / ulp e = m * 2 ^ ((f : Int) - e) := by
    rw [heq, mul_div_assoc, ulp, ulp, ← zpow_sub₀ two_ne_zero, sub_sub_sub_cancel_right]
  rw [hratio]
  rcases Nat.lt_or_ge f e with hlt | hge
  · refine .inr ⟨by omega, ?_⟩
    have hm' : (m : ℚ) ≤ 2 ^ 53 - 1 := by exact_mod_cast (le_abs_self m).trans hm
    have hhalf : (2 : ℚ) ^ ((f : Int) - e) ≤ 2 ^ (-1 : Int) := zpow_le_zpow_right₀ one_le_two (by omega)
    calc (m : ℚ) * 2 ^ ((f : Int) - e) ≤ (2 ^ 53 - 1) * 2 ^ ((f : Int) - e) := by gcongr
      _ ≤ (2 ^ 53 - 1) * 2 ^ (-1 : Int) := by gcongr
      _ < 2 ^ 52 := by norm_num
  · obtain ⟨k, rfl⟩ := Nat.exists_eq_add_of_le hge
    refine .inl ⟨m * 2 ^ k, ?_⟩
    push_cast
    rw [add_sub_cancel_left, zpow_natCast]

/-- A subnormal pattern is below the least normal value. -/
theorem f64Exponent_ne_zero (h : (2 : ℚ) ^ (-1022 : Int) ≤ |f64Value x|) : f64Exponent x ≠ 0 := by
  intro hexp
  have hfrac : (f64Fraction x : ℚ) < 2 ^ 52 := by exact_mod_cast f64Fraction_lt x
  rw [abs_f64Value, f64Significand, f64Scale, if_pos hexp, if_pos hexp] at h
  have hsub : (2 : ℚ) ^ (-1022 : Int) < 2 ^ 52 * 2 ^ (-1074 : Int) :=
    h.trans_lt (mul_lt_mul_of_pos_right hfrac (zpow_pos two_pos _))
  rw [← zpow_natCast, ← zpow_add₀ two_ne_zero] at hsub
  exact absurd hsub (lt_irrefl _)

end Pattern

section Division

variable {x : Double} {d : Nat}

/-- A division keeps the sign bit and rounds the quotient of the magnitudes once. -/
theorem exists_fdiv_roundsTo (h : f64Finite x = true) (hd : 0 < d) :
    ∃ e q, fdiv x d = f64Pack (f64Sign x) (e * 2 ^ 52 + q) ∧ RoundsTo (|f64Value x| / d) e q ∧
      e * 2 ^ 52 + q < 2047 * 2 ^ 52 := by
  obtain ⟨e, q, hbits, hround⟩ := roundMagnitude_roundsTo (f64Significand x * 2 ^ (f64Scale x).toNat)
    (d := d * 2 ^ (-f64Scale x).toNat) (by positivity)
  have hquotient : ((f64Significand x * 2 ^ (f64Scale x).toNat : Nat) : ℚ) / (d * 2 ^ (-f64Scale x).toNat : Nat) =
      |f64Value x| / d := by
    rw [abs_f64Value, two_zpow_eq_div]
    push_cast
    field_simp
  have hle : |f64Value x| / d ≤ (2 ^ 53 - 1 : Nat) * ulp 2045 :=
    (div_le_self (abs_nonneg _) (by exact_mod_cast hd)).trans (abs_f64Value_le h)
  rw [hquotient] at hround
  exact ⟨e, q, by rw [fdiv, if_pos h, hbits], hround, hround.magnitude_lt hle⟩

@[simp] theorem f64Finite_fdiv (h : f64Finite x = true) (hd : 0 < d) : f64Finite (fdiv x d) = true := by
  obtain ⟨e, q, hpack, -, hlt⟩ := exists_fdiv_roundsTo h hd
  rw [hpack]
  exact f64Finite_f64Pack _ hlt

@[simp] theorem f64Sign_fdiv (h : f64Finite x = true) : f64Sign (fdiv x d) = f64Sign x := by
  rw [fdiv, if_pos h, f64Sign_f64Pack]

/-- The value of the quotient is its rounded significand in units, and the significand's parity is the last bit. -/
theorem exists_f64Value_fdiv (h : f64Finite x = true) (hd : 0 < d) :
    ∃ e q, RoundsTo (|f64Value x| / d) e q ∧ f64Value (fdiv x d) = signFactor (f64Sign x) * (q * ulp e) ∧
      (fdiv x d).getLsbD 0 = decide (q % 2 = 1) := by
  obtain ⟨e, q, hpack, hround, hlt⟩ := exists_fdiv_roundsTo h hd
  refine ⟨e, q, hround, ?_, ?_⟩
  · rw [hpack, f64Value_f64Pack _ hround.le_two_pow hround.normal_significand hlt, mul_assoc]
    rfl
  · rw [hpack, f64Pack_getLsbD, if_pos (by decide), Nat.testBit_zero]
    have hpar : (e * 2 ^ 52 + q) % 2 = q % 2 := by omega
    rw [hpar]

/-- Distances to a quotient of the sign of `x`, counted in units. -/
theorem abs_sub_signed_quotient (sign : Bool) (y v : ℚ) (e : Nat) :
    |y - signFactor sign * v| = |signFactor sign * y / ulp e - v / ulp e| * ulp e := by
  have hsq := signFactor_mul_self sign
  have hulp := ulp_pos e
  rw [← sub_div, abs_div, abs_of_pos hulp, div_mul_cancel₀ _ hulp.ne']
  calc |y - signFactor sign * v| = |signFactor sign| * |y - signFactor sign * v| := by rw [abs_signFactor, one_mul]
    _ = |signFactor sign * y - v| := by rw [← abs_mul, mul_sub, ← mul_assoc, hsq, one_mul]

/-- Settles O34: in units of the result's last place the result is the rounded significand, and every finite value is on the
grid that the significand is the nearest of. -/
theorem divisionIsCorrectlyRounded : Obligations.DivisionIsCorrectlyRounded := by
  intro x d hx hd
  refine ⟨f64Finite_fdiv hx hd, f64Sign_fdiv hx, fun z hz => ?_⟩
  obtain ⟨e, q, hround, hvalue, hbit⟩ := exists_f64Value_fdiv hx hd
  have hulp := ulp_pos e
  have hsig : signFactor (f64Sign x) * f64Value (fdiv x d) / ulp e = q := by
    rw [hvalue, ← mul_assoc, signFactor_mul_self, one_mul, mul_div_cancel_right₀ _ hulp.ne']
  obtain ⟨hnear, htie⟩ := hround.nearest (onGrid_of_finite hz (f64Sign x) e)
  rw [f64Value_eq_signFactor_mul_abs x, mul_div_assoc, abs_sub_signed_quotient _ _ _ e,
    abs_sub_signed_quotient _ (f64Value z) _ e, hsig, mul_left_inj' hulp.ne']
  refine ⟨mul_le_mul_of_nonneg_right hnear hulp.le, fun heq hne => ?_⟩
  have hother : signFactor (f64Sign x) * f64Value z / ulp e ≠ q := by
    intro hsame
    have hmul := (div_left_inj' hulp.ne').mp (hsame.trans hsig.symm)
    exact hne (mul_left_cancel₀ (left_ne_zero_of_mul_eq_one (signFactor_mul_self _)) hmul)
  rw [hbit, htie heq hother]
  rfl

end Division

end Sys2Proof.Machine

/-! PROOFS. Decoded values stay far above the subnormals (42_telemetry_decoder.md R165): a numerator is zero or at least 1 in
magnitude, and no code divides more than twice. -/

namespace Sys2Proof.Machine

/-- A division by at most `2 ^ 12` lowers a magnitude of at least `2 ^ (-k)` to at least `2 ^ (-(k + 13))`. -/
theorem le_abs_f64Value_fdiv {x : Double} {d k : Nat} (h : f64Finite x = true) (hd : 0 < d) (hle : d ≤ 2 ^ 12)
    (hk : k + 13 ≤ 1022) (hx : (2 : ℚ) ^ (-(k : Int)) ≤ |f64Value x|) :
    (2 : ℚ) ^ (-((k + 13 : Nat) : Int)) ≤ |f64Value (fdiv x d)| := by
  obtain ⟨e, q, hround, hvalue, -⟩ := exists_f64Value_fdiv h hd
  have hquotient : (2 : ℚ) ^ (-(k : Int) - 12) ≤ |f64Value x| / d := by
    have hd' : (d : ℚ) ≤ 2 ^ (12 : Int) := by exact_mod_cast hle
    rw [zpow_sub₀ two_ne_zero]
    exact div_le_div₀ (abs_nonneg _) hx (by exact_mod_cast hd) hd'
  have hunit : ulp 0 ≤ |f64Value x| / d := le_trans (zpow_le_zpow_right₀ one_le_two (by omega)) hquotient
  rw [hvalue, abs_mul, abs_signFactor, one_mul, abs_of_nonneg (by have := ulp_pos e; positivity)]
  refine le_trans ?_ (hround.half_le hunit)
  rw [le_div_iff₀ two_pos, ← zpow_add_one₀ two_ne_zero]
  exact le_trans (zpow_le_zpow_right₀ one_le_two (by omega)) hquotient

/-- Divisions by at most `2 ^ 12`, few enough to stay above the subnormals. -/
theorem foldl_fdiv_normal (ds : List Nat) (hds : ∀ d ∈ ds, 0 < d ∧ d ≤ 2 ^ 12) {x : Double} {k : Nat}
    (hx : f64Finite x = true) (hk : k + 13 * ds.length ≤ 1022) (hge : (2 : ℚ) ^ (-(k : Int)) ≤ |f64Value x|) :
    f64Finite (ds.foldl fdiv x) = true ∧ f64Exponent (ds.foldl fdiv x) ≠ 0 ∧ f64Sign (ds.foldl fdiv x) = f64Sign x := by
  induction ds generalizing x k with
  | nil =>
    rw [List.length_nil] at hk
    exact ⟨hx, f64Exponent_ne_zero (le_trans (zpow_le_zpow_right₀ one_le_two (by omega)) hge), rfl⟩
  | cons d ds ih =>
    obtain ⟨hd, hle⟩ := hds d List.mem_cons_self
    rw [List.length_cons] at hk
    obtain ⟨hfinite, hexp, hsign⟩ := ih (fun d hmem => hds d (List.mem_cons_of_mem _ hmem)) (f64Finite_fdiv hx hd)
      (by omega) (le_abs_f64Value_fdiv hx hd hle (by omega) hge)
    exact ⟨hfinite, hexp, hsign.trans (f64Sign_fdiv hx)⟩

@[simp] theorem f64OfInt_zero : f64OfInt 0 = 0 := by decide

/-- `+0.0` divided by anything is `+0.0`. -/
@[simp] theorem fdiv_zero (d : Nat) : fdiv 0 d = 0 := by
  have hsig : f64Significand 0 = 0 := by decide
  have hround : ∀ d', roundMagnitude 0 d' = 0 := fun _ => if_pos rfl
  rw [fdiv, if_pos (by decide), hsig, zero_mul, hround]
  decide

theorem natAbs_numerator_le (raw : RegVal) (tag : Tag) : (numerator raw tag).natAbs ≤ 65535 := by
  have hlt := raw.isLt
  rw [numerator_eq]
  split <;> omega

theorem decodeDivisors_bounds (tag : Tag) (div : Div) :
    (∀ d ∈ decodeDivisors tag div, 0 < d ∧ d ≤ 2 ^ 12) ∧ (decodeDivisors tag div).length ≤ 2 := by
  cases tag <;> cases div <;> decide

/-- Settles O35: a numerator that is not zero converts to at least 1 in magnitude, and at most two divisions stay far above
the subnormals. -/
theorem decodedValuesAreNormalOrPlusZero : Obligations.DecodedValuesAreNormalOrPlusZero := by
  intro raw tag div
  rw [decodeValue_eq_foldl]
  by_cases hzero : numerator raw tag = 0
  · rw [hzero, f64OfInt_zero, List.foldl_fixed' fdiv_zero]
    exact ⟨by decide, fun _ => rfl, fun hne => absurd rfl hne⟩
  · obtain ⟨hfinite, hvalue, hsign⟩ := integersConvertExactly _ (natAbs_numerator_le raw tag)
    obtain ⟨hds, hlength⟩ := decodeDivisors_bounds tag div
    have hone : (2 : ℚ) ^ (-((0 : Nat) : Int)) ≤ |f64Value (f64OfInt (numerator raw tag))| := by
      rw [hvalue]
      simpa using mod_cast Int.one_le_abs hzero
    obtain ⟨hfinite', hexp, hsign'⟩ := foldl_fdiv_normal _ hds hfinite (by omega) hone
    exact ⟨hfinite', fun h => absurd h hzero, fun _ => ⟨hexp, hsign'.trans hsign⟩⟩

end Sys2Proof.Machine

/-! PROOFS. `BEGIN` plays the table (43_device_initializer.md R181 to R185): each entry is one write, and its outcome leads to
the next entry, so that the run follows the list of the entries left. -/

namespace Sys2Proof.Machine

/-! ### The turns and the records of the table, entry by entry -/

section Table

variable (e : InitEntry) (left : List InitEntry) (echo : Byte) (echoes : List Byte)

/-- The checksum an entry's write is answered by (40_frame_codec.md R112, R117). -/
def entryChecksum (e : InitEntry) : Byte := hiByte e.data + loByte e.data + addressByte e.addr .write

/-- The turns of the Sequencer that an entry takes. -/
def entrySteps (e : InitEntry) (echo : Byte) : Nat := if echo = entryChecksum e then 7 else 8

/-- The records that an entry emits. -/
def entryRecords (e : InitEntry) (echo : Byte) : List LogRecord :=
  if echo = entryChecksum e then [] else [⟨.write, addressByte e.addr .write, entryChecksum e, echo⟩]

theorem beginSteps_cons : beginSteps (e :: left) (echo :: echoes) = entrySteps e echo + beginSteps left echoes := rfl

theorem beginRecords_cons :
    beginRecords (e :: left) (echo :: echoes) = entryRecords e echo ++ beginRecords left echoes := by
  by_cases hecho : echo = entryChecksum e
  · rw [entryRecords, if_pos hecho]
    exact List.filterMap_cons_none (if_pos hecho)
  · rw [entryRecords, if_neg hecho]
    exact List.filterMap_cons_some (if_neg hecho)

end Table

/-! ### One entry, and the entries left -/

section Begin

variable {s : State} {rest : List Event} {more : List Byte} {e : InitEntry} {left : List InitEntry} {echo : Byte}
  {echoes : List Byte}

/-- With no entry left the table is over. -/
theorem playEntry_of_drop_nil (hleft : initTable.drop s.seq.initIdx = []) :
    playEntry initTable s = complete .none s := by
  have hnone : initTable[s.seq.initIdx]? = none := by rw [← List.head?_drop, hleft, List.head?_nil]
  simp only [playEntry, hnone]

/-- The first entry left is the one played. -/
theorem playEntry_of_drop_cons (hleft : initTable.drop s.seq.initIdx = e :: left) :
    playEntry initTable s = startTxn .write e.addr e.data s := by
  have hsome : initTable[s.seq.initIdx]? = some e := by rw [← List.head?_drop, hleft, List.head?_cons]
  simp only [playEntry, hsome]

/-- An entry of `BEGIN` is written and leads to the next one from its own index, after the penalty if the echo is bad
(43_device_initializer.md R184, R185). It is what `runsTo_of_writeFinish` says of the write, with the index kept. -/
theorem runsTo_nextInit (hopc : opcOf s.seq.cmd = 0x5) (hroom : 5 ≤ s.link.txRoom)
    (hheld : s.link.rxHeld = echo :: more) (hsched : Scheduled (entrySteps e echo) rest s) :
    ∃ w ok, AfterTxn s w (encodeWrite e.addr e.data) more (entryRecords e echo) rest ok ∧
      w.seq.initIdx = s.seq.initIdx ∧
      RunsTo (entrySteps e echo) (startTxn .write e.addr e.data s) (nextInit initTable w) := by
  by_cases hecho : echo = entryChecksum e
  · simp only [entrySteps, entryRecords, if_pos hecho] at hsched ⊢
    refine ⟨txnWriteOk (withTurns 0 rest (writeReceived e.addr e.data echo more s)), true,
      ⟨rfl, rfl, rfl, rfl, rfl, rfl, (List.append_nil _).symm, rfl⟩, rfl, ?_⟩
    exact runsTo_of_writeAck (n := 0) hroom hheld hsched ((execFrameWrAck_of_eq hecho).trans (finish_of_begin hopc))
  · simp only [entrySteps, entryRecords, if_neg hecho] at hsched ⊢
    refine ⟨withTurns 0 rest (writeMismatch echo (writeReceived e.addr e.data echo more s)), false,
      ⟨rfl, rfl, rfl, rfl, rfl, rfl, rfl, rfl⟩, rfl, ?_⟩
    have hpenalty : RunsTo 7 (startTxn .write e.addr e.data s)
        (withTurns 1 rest (writeMismatch echo (writeReceived e.addr e.data echo more s))) :=
      runsTo_of_writeAck hroom hheld hsched (execFrameWrAck_of_ne hecho)
    exact hpenalty.trans (.single ((step_withTurns ..).trans ((seqStep_of_penalty rfl).trans (finish_of_begin hopc))))

/-- What a command does after one of its transactions joins what that transaction has done. -/
theorem AfterTxn.afterCommand {w u : State} {sent sent' held held' : List Byte} {records records' : List LogRecord}
    {turns : List Event} {ok : Bool} {idx : Nat} (h : AfterTxn s w sent held records turns ok)
    (hu : AfterCommand (setInitIdx idx w) u sent' held' records' rest) :
    AfterCommand s u (sent ++ sent') held' (records ++ records') rest := by
  obtain ⟨hidle, hcmd, hhost, hpending, htick, hlog, hlink⟩ := hu
  refine ⟨hidle, hcmd.trans h.cmd, hhost.trans h.host, hpending, htick.trans h.tick, ?_, ?_⟩
  · rw [hlog, setInitIdx_log, h.log, List.append_assoc]
  · rw [hlink, setInitIdx_link, h.link, List.length_append, Nat.sub_sub, List.append_assoc]

/-- The entries left from the index on are played once and in order, and then `BEGIN` completes
(43_device_initializer.md R183). -/
theorem runsTo_of_entriesLeft (hopc : opcOf s.seq.cmd = 0x5)
    (hleft : initTable.drop s.seq.initIdx = left) (hlength : echoes.length = left.length)
    (hroom : 5 * left.length ≤ s.link.txRoom) (hheld : s.link.rxHeld = echoes ++ more)
    (hsched : Scheduled (beginSteps left echoes) rest s) :
    ∃ u, RunsTo (beginSteps left echoes) (playEntry initTable s) u ∧
      AfterCommand s u (left.flatMap fun e => encodeWrite e.addr e.data) more (beginRecords left echoes) rest ∧
      u.bank = { s.bank with busy := false, done := true, err := .none } := by
  induction left generalizing s echoes with
  | nil =>
    cases List.length_eq_zero_iff.mp hlength
    refine ⟨complete .none s, ?_, ⟨rfl, rfl, rfl, hsched, rfl, (List.append_nil _).symm, ?_⟩, rfl⟩
    · rw [playEntry_of_drop_nil hleft]
      rfl
    · rw [complete_link, List.flatMap_nil, List.append_nil, ← List.nil_append more, ← hheld]
      rfl
  | cons e left ih =>
    obtain ⟨echo, echoes, rfl⟩ := List.exists_cons_of_length_eq_add_one hlength
    simp only [List.length_cons] at hlength hroom
    rw [beginSteps_cons] at hsched ⊢
    obtain ⟨w, ok, hw, hidx, hrun⟩ := runsTo_nextInit (e := e) (more := echoes ++ more)
      (rest := List.replicate (beginSteps left echoes) .sequencer ++ rest) hopc (by omega) hheld
      (by rwa [Scheduled, ← List.append_assoc, ← List.replicate_add])
    have hnext : initTable.drop (w.seq.initIdx + 1) = left := by rw [hidx, ← List.tail_drop, hleft, List.tail_cons]
    have hroom' : 5 * left.length ≤ w.link.txRoom := by
      rw [hw.link]
      exact Nat.le_sub_of_add_le hroom
    obtain ⟨u, hrun', hu, hbank⟩ := ih (s := setInitIdx (w.seq.initIdx + 1) w)
      (by rw [setInitIdx_cmd, hw.cmd, hopc]) hnext (Nat.succ.inj hlength) hroom' (by rw [setInitIdx_link, hw.link])
      hw.pending
    rw [playEntry_of_drop_cons hleft, List.flatMap_cons, beginRecords_cons]
    exact ⟨u, hrun.trans hrun', hw.afterCommand hu, by rw [hbank, setInitIdx_bank, hw.bank]⟩

end Begin

/-- Settles O30: at dispatch every entry of the table is left. -/
theorem beginPlaysTheWholeTableWhateverTheEchoes : Obligations.BeginPlaysTheWholeTableWhateverTheEchoes := by
  intro s echoes more rest hcmd hlength hroom hheld hsched
  have hopc : opcOf s.seq.cmd = 0x5 := by rw [hcmd]; rfl
  obtain ⟨u, hrun, hu, hbank⟩ := runsTo_of_entriesLeft (s := setInitIdx 0 s) hopc List.drop_zero hlength hroom hheld
    hsched
  exact ⟨playEntry initTable (setInitIdx 0 s), u, rfl, hrun, hu, hbank⟩

end Sys2Proof.Machine

/-! PROOFS. What stops a run: a breach of the Host's duties, and nothing else (60_exceptions.md R203 to R205,
70_reset_and_hazards.md R234). -/

namespace Sys2Proof.Machine

/-! ### The Sequencer -/

/-- Under the invariant the Sequencer's event is never a fault: it waits, or it advances the transaction it holds. -/
theorem exists_seqStep {s : State} (hinv : Inv s) : ∃ t, seqStep s = .next t := by
  have hadvances : ∀ {r n}, Advances r s n → ∃ t, r = .next t := fun ⟨t, hr, _⟩ => ⟨t, hr⟩
  cases hst : s.seq.st with
  | idle =>
    cases hbusy : s.bank.busy with
    | false => exact ⟨s, seqStep_free hst hbusy⟩
    | true =>
      rw [seqStep, hst]
      simpa only [hbusy, if_true] using hadvances (advances_seqDispatch s)
  | tx =>
    rcases Nat.eq_zero_or_pos s.link.txRoom with hroom | hroom
    · exact ⟨s, sequencerWaitsForTheLink s (.inl ⟨hst, hroom⟩)⟩
    · obtain ⟨htxn, hphase⟩ := holdsTxn_of_inv hinv (by simp [hst])
      rw [seqStep_of_tx hst]
      exact hadvances (advances_seqTransmit htxn hst hphase hroom)
  | settle => exact ⟨_, seqStep_of_settle hst⟩
  | rx =>
    by_cases hheld : s.link.rxHeld = []
    · exact ⟨s, sequencerWaitsForTheLink s (.inr (.inl ⟨hst, hheld⟩))⟩
    · obtain ⟨htxn, hphase⟩ := holdsTxn_of_inv hinv (by simp [hst])
      rw [seqStep_of_rx hst]
      exact hadvances (advances_seqReceive htxn hst hphase hheld)
  | penalty =>
    obtain ⟨htxn, -⟩ := holdsTxn_of_inv hinv (by simp [hst])
    rw [seqStep_of_penalty hst]
    exact exists_finish_of_holdsTxn htxn

/-! ### The Host -/

/-- The Host program reads whole words of the bank and appends nothing to the log; its one fault is a command written while
`BUSY` = 1 (30_encoding.md R96). -/
theorem hostProgramStep_outcome (s : State) :
    (∃ t, hostProgramStep s = .next t ∧ t.log = s.log) ∨
    (s.bank.busy = true ∧ hostProgramStep s = .fault .busyViolation) := by
  obtain ⟨hpoll, hissue, hldw⟩ := hostProgramIssuesPollsAndObserves s
  cases hpolling : s.host.polling with
  | true => exact .inl ⟨_, hpoll hpolling, rfl⟩
  | false =>
    cases hprogram : s.host.program with
    | nil => exact .inl ⟨s, by simp [hostProgramStep, hpolling, hprogram], rfl⟩
    | cons stmt rest =>
      cases stmt with
      | issue w =>
        cases hbusy : s.bank.busy with
        | false => exact .inl ⟨_, hissue w rest hpolling hprogram hbusy, rfl⟩
        | true => exact .inr ⟨rfl, by simp [hostProgramStep, hpolling, hprogram, hostWrite_cmd, hbusy]⟩
      | ldw r =>
        obtain ⟨v, -, hread⟩ := hldw r rest hpolling hprogram
        exact .inl ⟨_, hread, rfl⟩

/-- The Host's duties look at the bank alone. -/
theorem hostKeepsDuties_of_bank (a : HostAccess) {s t : State} (hbank : t.bank = s.bank) :
    hostKeepsDuties a t = hostKeepsDuties a s := by
  cases a with
  | read off bytes => rfl
  | write off bytes w => simp only [hostKeepsDuties, hbank]

/-- The faults that stand for a breach of the Host's duties, in an access of its own or in its program's write to `CMD`. -/
inductive HostBreach (s : State) : Event → Fault → Prop where
  | access (a : HostAccess) (f : Fault) (hbreach : hostKeepsDuties a s = false) (hfault : f ≠ .noTransition) :
      HostBreach s (.hostAccess a) f
  | program (hbusy : s.bank.busy = true) : HostBreach s .hostProgram .busyViolation

/-- A Host access is answered, or it is a breach. -/
theorem hostAct_outcome (a : HostAccess) (s : State) :
    (∃ t, hostAct a s = .next t) ∨ ∃ f, hostAct a s = .fault f ∧ HostBreach s (.hostAccess a) f := by
  obtain ⟨hkeeps, hbreaks⟩ := hostAccessesFaultExactlyOutsideTheDuties a s
  cases hduties : hostKeepsDuties a s with
  | true => exact .inl (hkeeps.mp hduties)
  | false =>
    refine .inr ⟨_, hbreaks hduties, .access a _ hduties ?_⟩
    cases a with
    | read off bytes => exact nofun
    | write off bytes w => dsimp only; split <;> exact nofun

/-- Under the invariant every event leads on, or is a breach of the Host's. -/
theorem act_outcome {s : State} (hinv : Inv s) (e : Event) :
    (∃ t, act e s = .next t) ∨ ∃ f, act e s = .fault f ∧ HostBreach s e f := by
  cases e with
  | sequencer => exact .inl (exists_seqStep hinv)
  | hostAccess a => exact hostAct_outcome a s
  | hostProgram =>
    rcases hostProgramStep_outcome s with ⟨t, hstep, -⟩ | ⟨hbusy, hfault⟩
    · exact .inl ⟨t, hstep⟩
    · exact .inr ⟨_, hfault, .program hbusy⟩
  | linkAccepts | linkDelivers b | hostLoads st | reset => exact .inl ⟨_, rfl⟩

/-- Settles O38: under the invariant a step leads on, or it is the fault of a Host's breach. -/
theorem onlyTheHostsBreachesFault : Obligations.OnlyTheHostsBreachesFault := by
  intro s hinv
  obtain ⟨hseq, hbank, -, -⟩ := nextEvent_keeps_block s
  rcases act_outcome (inv_of_kept hinv hseq hbank) (nextEvent s).1 with ⟨t, hnext⟩ | ⟨f, hfault, hbreach⟩
  · rw [step, hnext]
    exact ⟨nofun, nofun, nofun⟩
  · rw [step, hfault]
    generalize (nextEvent s).1 = e at hbreach
    cases hbreach with
    | access a _ hduties hnot =>
      rw [hostKeepsDuties_of_bank a hbank] at hduties
      exact ⟨nofun, fun heq => hnot (Host.Outcome.fault.inj heq), fun _ _ => .inl ⟨a, rfl, hduties⟩⟩
    | program hbusy =>
      rw [hbank] at hbusy
      exact ⟨nofun, nofun, fun f heq => .inr ⟨rfl, hbusy, (Host.Outcome.fault.inj heq).symm⟩⟩

end Sys2Proof.Machine

/-! PROOFS. The log: one record for each mismatch, in the step that detects it and enters the penalty
(41_transaction_engine.md R138, 60_exceptions.md R208). -/

namespace Sys2Proof.Machine

/-! ### Validation of a whole response -/

section Mismatch

variable {s t : State}

theorem validate_of_bad_read (hop : s.seq.op = .read) (hsum : s.seq.rx[0] + s.seq.rx[1] ≠ s.seq.rx[2]) :
    validate s = .next (readMismatch s.seq.rx[0] s.seq.rx[1] s.seq.rx[2] s) := by
  rw [validate_eq, hop]
  exact execFrameRdResp_of_ne_sum hsum

theorem validate_of_bad_write (hop : s.seq.op = .write) (hecho : s.seq.rx[0] ≠ s.seq.chk) :
    validate s = .next (writeMismatch s.seq.rx[0] s) := by
  rw [validate_eq, hop]
  exact execFrameWrAck_of_ne hecho

/-- A response is good, or it is the mismatch of its kind of transaction. -/
theorem validate_outcome (s : State) :
    (∃ raw, validate s = finish (txnReadOk raw s)) ∨
    (s.seq.op = .read ∧ s.seq.rx[0] + s.seq.rx[1] ≠ s.seq.rx[2] ∧
      validate s = .next (readMismatch s.seq.rx[0] s.seq.rx[1] s.seq.rx[2] s)) ∨
    (s.seq.op = .write ∧ s.seq.rx[0] ≠ s.seq.chk ∧ validate s = .next (writeMismatch s.seq.rx[0] s)) := by
  cases hop : s.seq.op with
  | read =>
    by_cases hsum : s.seq.rx[0] + s.seq.rx[1] = s.seq.rx[2]
    · refine .inl ⟨wordOfBytes s.seq.rx[0] s.seq.rx[1], ?_⟩
      rw [validate_eq, hop]
      exact execFrameRdResp_of_sum hsum
    · exact .inr (.inl ⟨rfl, hsum, validate_of_bad_read hop hsum⟩)
  | write =>
    by_cases hecho : s.seq.rx[0] = s.seq.chk
    · refine .inl ⟨s.seq.txnRaw, ?_⟩
      rw [validate_eq, hop]
      exact execFrameWrAck_of_eq hecho
    · exact .inr (.inr ⟨rfl, hecho, validate_of_bad_write hop hecho⟩)

/-! ### A step without a record, and a step with one -/

/-- The step from `s` to `t` leaves the log, and does not enter the penalty. -/
structure NoRecord (s t : State) : Prop where
  log : t.log = s.log
  st  : t.seq.st = .penalty → s.seq.st = .penalty

/-- `t` has entered the penalty from a response that ends in `RX` with a checksum that differs, and its log is `log` with the
record of it; `q` is the Sequencer before. -/
structure Recorded (q : SeqRegs) (log : List LogRecord) (t : State) : Prop where
  entered : t.seq.st = .penalty
  st      : q.st = .rx
  dly     : t.seq.dly = Config.failDelay
  txnOk   : t.seq.txnOk = false
  read    : q.op = .read → t.seq.rx[2] ≠ t.seq.rx[0] + t.seq.rx[1] ∧
    t.log = log ++ [⟨.read, q.abyte, t.seq.rx[0] + t.seq.rx[1], t.seq.rx[2]⟩]
  write   : q.op = .write → t.seq.rx[0] ≠ q.chk ∧ t.log = log ++ [⟨.write, q.abyte, q.chk, t.seq.rx[0]⟩]

theorem noRecord_playEntry (table : List InitEntry) (n : Nat) (s : State) :
    NoRecord s (playEntry table (setInitIdx n s)) := by
  rcases playEntry_cases table (setInitIdx n s) with ⟨e, -, hplay⟩ | ⟨-, hplay⟩
  · rw [hplay]
    exact ⟨rfl, nofun⟩
  · rw [hplay]
    exact ⟨rfl, nofun⟩

theorem noRecord_finish (h : finish s = .next t) : NoRecord s t := by
  rcases finish_cases h with ⟨-, rfl⟩ | ⟨-, rfl⟩ | ⟨-, tag, div, -, -, rfl⟩ | ⟨-, rfl⟩ | ⟨-, rfl⟩
  · exact ⟨rfl, nofun⟩
  · exact ⟨rfl, nofun⟩
  · exact ⟨rfl, nofun⟩
  · exact noRecord_playEntry _ _ s
  · exact ⟨rfl, nofun⟩

theorem noRecord_seqDispatch (h : seqDispatch s = .next t) : NoRecord s t := by
  rcases seqDispatch_cases h with ⟨e, -, rfl⟩ | ⟨data, tag, div, -, rfl⟩ | ⟨-, rfl⟩ | ⟨i, kind, addr, data, -, -, rfl⟩
  · exact ⟨rfl, nofun⟩
  · exact ⟨rfl, nofun⟩
  · exact noRecord_playEntry _ _ s
  · cases kind <;> exact ⟨rfl, nofun⟩

theorem noRecord_txAdvance (len : BitVec 3) (s : State) : NoRecord s (txAdvance len s) := by
  rcases txAdvance_cases len s with ⟨-, hadv⟩ | ⟨-, hadv⟩
  · rw [hadv]
    exact ⟨rfl, nofun⟩
  · rw [hadv]
    exact ⟨rfl, id⟩

theorem recorded_of_validate (hst : s.seq.st = .rx) (h : validate s = .next t) :
    NoRecord s t ∨ Recorded s.seq s.log t := by
  rcases validate_outcome s with ⟨raw, hgood⟩ | ⟨hop, hsum, hbad⟩ | ⟨hop, hecho, hbad⟩
  · obtain ⟨hlog, hpenalty⟩ := noRecord_finish (hgood.symm.trans h)
    exact .inl ⟨hlog, hpenalty⟩
  · cases hbad.symm.trans h
    exact .inr ⟨rfl, hst, rfl, rfl, fun _ => ⟨hsum.symm, rfl⟩, by simp [hop]⟩
  · cases hbad.symm.trans h
    exact .inr ⟨rfl, hst, rfl, rfl, by simp [hop], fun _ => ⟨hecho, rfl⟩⟩

/-- Only the validation of a response in `RX` appends to the log or enters the penalty (41_transaction_engine.md R138). -/
theorem recorded_of_seqStep (h : seqStep s = .next t) : NoRecord s t ∨ Recorded s.seq s.log t := by
  rcases seqStep_cases h with rfl | ⟨-, -, hdispatch⟩ | ⟨-, b, len, rfl, -⟩ | ⟨-, rfl⟩ | ⟨hst, b, held, htake⟩ |
    ⟨-, hfinish⟩
  · exact .inl ⟨rfl, id⟩
  · exact .inl (noRecord_seqDispatch hdispatch)
  · obtain ⟨hlog, hpenalty⟩ := noRecord_txAdvance len (txSend b s)
    exact .inl ⟨hlog, hpenalty⟩
  · exact .inl ⟨rfl, nofun⟩
  · rcases htake with ⟨-, rfl⟩ | ⟨-, hvalidate⟩
    · exact .inl ⟨rfl, id⟩
    · rcases recorded_of_validate (s := rxTake b held s) hst hvalidate with
        ⟨hlog, hpenalty⟩ | ⟨entered, st, dly, txnOk, read, write⟩
      · exact .inl ⟨hlog, hpenalty⟩
      · exact .inr ⟨entered, st, dly, txnOk, read, write⟩
  · exact .inl (noRecord_finish hfinish)

theorem hostAct_log {a : HostAccess} (h : hostAct a s = .next t) : t.log = s.log := by
  cases a with
  | read off bytes =>
    obtain ⟨v, -, -, rfl⟩ := hostRead_cases h
    rfl
  | write off bytes w =>
    obtain ⟨-, -, -, rfl⟩ := hostWrite_cases h
    rfl

/-- No agent but the Sequencer touches the log; reset leaves it (70_reset_and_hazards.md R222). -/
theorem act_log {e : Event} (hagent : e ≠ .sequencer) (h : act e s = .next t) : t.log = s.log := by
  cases e with
  | sequencer => exact absurd rfl hagent
  | hostAccess a => exact hostAct_log h
  | hostProgram =>
    rcases hostProgramStep_outcome s with ⟨u, hstep, hlog⟩ | ⟨-, hfault⟩
    · cases hstep.symm.trans h
      exact hlog
    · cases hfault.symm.trans h
  | linkAccepts | linkDelivers b | hostLoads st | reset => cases h; rfl

/-- No agent but the Sequencer enters the penalty. -/
theorem noRecord_of_agent (hagent : (nextEvent s).1 ≠ .sequencer) (h : step s = .next t) : NoRecord s t := by
  refine ⟨(act_log hagent h).trans (nextEvent_keeps_block s).log, fun hpenalty => ?_⟩
  rcases step_cases h with ⟨hevent, -⟩ | hkept | ⟨⟨-, ⟨w, hseq⟩, -⟩, -⟩ | ⟨-, rfl⟩
  · exact absurd hevent hagent
  · exact hkept.seq ▸ hpenalty
  · rw [hseq] at hpenalty
    exact hpenalty
  · cases hpenalty

/-- A step of any agent appends nothing, or is the Sequencer's that records a mismatch. -/
theorem recorded_of_step (h : step s = .next t) :
    NoRecord s t ∨ ((nextEvent s).1 = .sequencer ∧ Recorded s.seq s.log t) := by
  by_cases hevent : (nextEvent s).1 = .sequencer
  · obtain ⟨hseq, -, hlog, -⟩ := nextEvent_keeps_block s
    rcases recorded_of_seqStep (seqStep_of_step hevent h) with hquiet | hrec
    · exact .inl ⟨hquiet.log.trans hlog, fun hpenalty => hseq ▸ hquiet.st hpenalty⟩
    · rw [hseq, hlog] at hrec
      exact .inr ⟨hevent, hrec⟩
  · exact .inl (noRecord_of_agent hevent h)

end Mismatch

/-- Settles O48: a step appends nothing or records the mismatch it finds, and the last byte of a response is validated in the
step that takes it. -/
theorem logGrowsExactlyByMismatches : Obligations.LogGrowsExactlyByMismatches := by
  refine ⟨fun s t hstep => ?_, fun s b held hevent hst hheld hcnt hlast => ?_⟩
  · rcases recorded_of_step hstep with ⟨hlog, hpenalty⟩ | ⟨hevent, entered, st, dly, txnOk, read, write⟩
    · exact .inl ⟨hlog, fun ⟨hnot, henters⟩ => hnot (hpenalty henters)⟩
    · exact .inr ⟨entered, st, hevent, dly, txnOk, read, write⟩
  · obtain ⟨hseq, -, hlink, -, hlog⟩ := nextEvent_frame s
    have hstep : step s = seqStep (nextEvent s).2 := by rw [step, hevent, act]
    rw [hstep]
    generalize (nextEvent s).2 = u at hseq hlink hlog
    rw [← hseq] at hst hcnt hlast
    rw [← hlink] at hheld
    rw [← hseq, ← hlog, ← hlast, seqStep_of_rx hst, seqReceive_of_last hheld hcnt hlast]
    exact ⟨fun hop hbad => validate_of_bad_read (s := rxTake b held u) hop hbad.symm,
      fun hop hbad => validate_of_bad_write (s := rxTake b held u) hop hbad⟩

end Sys2Proof.Machine

/-! PROOFS. The free choice: the step of a state with nothing scheduled (00_scope.md R4, notes/assumptions/2.md). -/

namespace Sys2Proof.Machine

/-- An empty schedule leaves the choice to the free value, and the choice spends a tick. -/
@[simp] theorem nextEvent_unscheduled (s : State) (h : s.pending = []) :
    nextEvent s = (Config.environment s.tick, { s with tick := s.tick + 1 }) := by
  simp only [nextEvent, h]

/-- Settles O16: a step is the action of the event chosen, and with nothing scheduled the free value is the event. -/
theorem unscheduledStepIsTheFreeEvent : Obligations.UnscheduledStepIsTheFreeEvent := by
  intro s hpending
  rw [step, nextEvent_unscheduled s hpending]

end Sys2Proof.Machine
